-- ==== Sys2Proof/Word.lean ====
section
/-! DEFINITION. The word types of the machine (spec/00_scope.md R6, R9). -/

namespace Sys2Proof

/-- A byte: the contents of a general register, a timer or a memory address (R6, R20, R60). -/
abbrev Byte := BitVec 8

/-- A 16-bit word: PC, I, a stack entry or an opcode (R6, R91). -/
abbrev Word := BitVec 16

/-- The number of a general register, 0x0 to 0xF (R20). -/
abbrev Reg := Fin 16

/-- A key value, 0x0 to 0xF (R180). -/
abbrev Key := Fin 16

end Sys2Proof
end

