-- ==== Sys2Proof/Machine/Flags.lean ====
section
/-! DEFINITION. Every value the machine writes to VF as a flag (spec/10_state.md R28), but for DXYN's
collision, which the draw computes (Machine/Display.lean). -/

namespace Sys2Proof.Machine

/-- A flag as VF holds it: 1 or 0 (R28). -/
def flagByte (b : Bool) : Byte := if b then 1 else 0

/-- 8XY4: 1 if `vx + vy > 255` (R147). -/
def carryFlag (vx vy : Byte) : Byte := flagByte (decide (vx.toNat + vy.toNat > 255))

/-- 8XY5 with (vx, vy), 8XY7 with (vy, vx): 1 if the minuend is strictly greater (R148, R150). -/
def greaterFlag (minuend subtrahend : Byte) : Byte :=
  flagByte (decide (minuend.toNat > subtrahend.toNat))

/-- 8XY6: bit 0 of the value shifted (R149). -/
def shrFlag (src : Byte) : Byte := flagByte (src.getLsbD 0)

/-- 8XYE: bit 7 of the value shifted (R151). -/
def shlFlag (src : Byte) : Byte := flagByte (src.getLsbD 7)

/-- FX1E: 1 if the true sum `i0 + vx` exceeds 0xFFF (R161, decision D6). -/
def indexFlag (i0 : Word) (vx : Byte) : Byte := flagByte (decide (i0.toNat + vx.toNat > 0xFFF))

end Sys2Proof.Machine
end

