-- ==== Sys2Proof/Syntax.lean ====
section
/-! DEFINITION. The instructions: one constructor per row of spec/opcode_table.json (30_encoding.md
R96, R99), named after the row's mnemonic, with the fields R92 gives the row. -/

namespace Sys2Proof

/-- An instruction. `x`, `y` are register numbers, `nn` an 8-bit and `nnn` a 12-bit immediate, `n` the
row count of DXYN (R92, R94). -/
inductive Instr where
  /-- 00E0 CLS: clear the display. -/
  | cls
  /-- 00EE RET: return from subroutine. -/
  | ret
  /-- 1NNN JP NNN: jump. -/
  | jp (nnn : BitVec 12)
  /-- 2NNN CALL NNN: call subroutine. -/
  | call (nnn : BitVec 12)
  /-- 3XNN SE VX, NN: skip if register equals immediate. -/
  | seImm (x : Reg) (nn : Byte)
  /-- 4XNN SNE VX, NN: skip if register differs from immediate. -/
  | sneImm (x : Reg) (nn : Byte)
  /-- 5XY0 SE VX, VY: skip if two registers are equal. -/
  | seReg (x y : Reg)
  /-- 6XNN LD VX, NN: load immediate. -/
  | ldImm (x : Reg) (nn : Byte)
  /-- 7XNN ADD VX, NN: add immediate, no flag. -/
  | addImm (x : Reg) (nn : Byte)
  /-- 8XY0 LD VX, VY: copy register. -/
  | ldReg (x y : Reg)
  /-- 8XY1 OR VX, VY. -/
  | orReg (x y : Reg)
  /-- 8XY2 AND VX, VY. -/
  | andReg (x y : Reg)
  /-- 8XY3 XOR VX, VY. -/
  | xorReg (x y : Reg)
  /-- 8XY4 ADD VX, VY: add with carry flag. -/
  | addReg (x y : Reg)
  /-- 8XY5 SUB VX, VY: subtract VY from VX, with flag. -/
  | subReg (x y : Reg)
  /-- 8XY6 SHR VX, VY: shift right by one. -/
  | shr (x y : Reg)
  /-- 8XY7 SUBN VX, VY: subtract VX from VY, with flag. -/
  | subnReg (x y : Reg)
  /-- 8XYE SHL VX, VY: shift left by one. -/
  | shl (x y : Reg)
  /-- 9XY0 SNE VX, VY: skip if two registers differ. -/
  | sneReg (x y : Reg)
  /-- ANNN LD I, NNN: load index register. -/
  | ldI (nnn : BitVec 12)
  /-- BNNN JP V0, NNN: jump with offset (also read as BXNN, its X being the top digit of NNN, R98). -/
  | jpV0 (nnn : BitVec 12)
  /-- CXNN RND VX, NN: masked random byte. -/
  | rnd (x : Reg) (nn : Byte)
  /-- DXYN DRW VX, VY, N: draw an N-row sprite. -/
  | drw (x y : Reg) (n : Fin 16)
  /-- EX9E SKP VX: skip if key VX is held. -/
  | skp (x : Reg)
  /-- EXA1 SKNP VX: skip if key VX is not held. -/
  | sknp (x : Reg)
  /-- FX07 LD VX, DT: read the delay timer. -/
  | ldVxDt (x : Reg)
  /-- FX0A LD VX, K: wait for a key-down event. -/
  | ldVxK (x : Reg)
  /-- FX15 LD DT, VX: set the delay timer. -/
  | ldDtVx (x : Reg)
  /-- FX18 LD ST, VX: set the sound timer. -/
  | ldStVx (x : Reg)
  /-- FX1E ADD I, VX: add register to index, with overflow flag. -/
  | addI (x : Reg)
  /-- FX29 LD F, VX: point I at a font glyph. -/
  | ldF (x : Reg)
  /-- FX33 LD B, VX: store the three decimal digits of VX. -/
  | ldB (x : Reg)
  /-- FX55 LD [I], VX: store registers V0 to VX. -/
  | stRegs (x : Reg)
  /-- FX65 LD VX, [I]: load registers V0 to VX. -/
  | ldRegs (x : Reg)
  /-- UNDEF: a word that matches no other row, executed as a no-operation (R99). -/
  | undef (w : Word)
deriving DecidableEq, Repr

end Sys2Proof
end

