-- ==== Sys2Proof/WellFormed.lean ====
section
/-! DEFINITION. Well-formed instructions. Every field's range is in its type; the one check left is
that UNDEF holds an undefined word, by the table of 30_encoding.md R99. -/

namespace Sys2Proof

/-- The undefined words, family by family, as R99's table lists them: `f` is the family, `n` the last
digit, `nn` the second byte. -/
def isUndefWord (w : Word) : Bool :=
  let f := w.extractLsb' 12 4
  let n := w.extractLsb' 0 4
  let nn := w.extractLsb' 0 8
  if f = 0x0 then w ≠ 0x00E0 ∧ w ≠ 0x00EE
  else if f = 0x5 ∨ f = 0x9 then n ≠ 0x0
  else if f = 0x8 then n ∈ [0x8, 0x9, 0xA, 0xB, 0xC, 0xD, 0xF]
  else if f = 0xE then nn ∉ [0x9E, 0xA1]
  else if f = 0xF then nn ∉ [0x07, 0x0A, 0x15, 0x18, 0x1E, 0x29, 0x33, 0x55, 0x65]
  else false

/-- The check: a documented instruction is well formed, UNDEF is well formed when its word is an
undefined word (R99). -/
def Instr.wf : Instr → Bool
  | .cls => true
  | .ret => true
  | .jp _ => true
  | .call _ => true
  | .seImm _ _ => true
  | .sneImm _ _ => true
  | .seReg _ _ => true
  | .ldImm _ _ => true
  | .addImm _ _ => true
  | .ldReg _ _ => true
  | .orReg _ _ => true
  | .andReg _ _ => true
  | .xorReg _ _ => true
  | .addReg _ _ => true
  | .subReg _ _ => true
  | .shr _ _ => true
  | .subnReg _ _ => true
  | .shl _ _ => true
  | .sneReg _ _ => true
  | .ldI _ => true
  | .jpV0 _ => true
  | .rnd _ _ => true
  | .drw _ _ _ => true
  | .skp _ => true
  | .sknp _ => true
  | .ldVxDt _ => true
  | .ldVxK _ => true
  | .ldDtVx _ => true
  | .ldStVx _ => true
  | .addI _ => true
  | .ldF _ => true
  | .ldB _ => true
  | .stRegs _ => true
  | .ldRegs _ => true
  | .undef w => isUndefWord w

end Sys2Proof
end

