-- ==== Sys2Proof/Decode.lean ====
section
/-! DEFINITION. The decoder and the encoder (30_encoding.md R90 to R99). Decoding compares a word with
the 34 (mask, match) rows of R96; a word that matches none is UNDEF. Encoding writes each row's word
digit by digit from its pattern. -/

namespace Sys2Proof

/-! ### Fields (R92) -/

/-- A register number from a 4-bit field. -/
def regOfDigit (d : BitVec 4) : Reg := ⟨d.toNat, d.isLt⟩

/-- The 4-bit field that holds a register number. -/
def digitOfReg (x : Reg) : BitVec 4 := BitVec.ofFin x

/-- X = op[11:8]. -/
def fieldX (w : Word) : Reg := regOfDigit (w.extractLsb' 8 4)

/-- Y = op[7:4]. -/
def fieldY (w : Word) : Reg := regOfDigit (w.extractLsb' 4 4)

/-- N = op[3:0]. -/
def fieldN (w : Word) : Fin 16 := regOfDigit (w.extractLsb' 0 4)

/-- NN = op[7:0]. -/
def fieldNN (w : Word) : Byte := w.extractLsb' 0 8

/-- NNN = op[11:0]. -/
def fieldNNN (w : Word) : BitVec 12 := w.extractLsb' 0 12

/-! ### The opcode map (R96) -/

/-- A row of the opcode map: the words `w` with `w AND mask = val`, and the instruction such a word
stands for. -/
structure OpcodeRow where
  mask  : Word
  val   : Word
  build : Word → Instr

/-- A word matches a row (R95). -/
def OpcodeRow.matches (r : OpcodeRow) (w : Word) : Bool := (w &&& r.mask) == r.val

/-- Families 0 to 7 of the map. -/
def opcodeRowsLow : List OpcodeRow :=
  [ ⟨0xFFFF, 0x00E0, fun _ => .cls⟩,
    ⟨0xFFFF, 0x00EE, fun _ => .ret⟩,
    ⟨0xF000, 0x1000, fun w => .jp (fieldNNN w)⟩,
    ⟨0xF000, 0x2000, fun w => .call (fieldNNN w)⟩,
    ⟨0xF000, 0x3000, fun w => .seImm (fieldX w) (fieldNN w)⟩,
    ⟨0xF000, 0x4000, fun w => .sneImm (fieldX w) (fieldNN w)⟩,
    ⟨0xF00F, 0x5000, fun w => .seReg (fieldX w) (fieldY w)⟩,
    ⟨0xF000, 0x6000, fun w => .ldImm (fieldX w) (fieldNN w)⟩,
    ⟨0xF000, 0x7000, fun w => .addImm (fieldX w) (fieldNN w)⟩ ]

/-- Families 8 and 9 of the map. -/
def opcodeRowsArith : List OpcodeRow :=
  [ ⟨0xF00F, 0x8000, fun w => .ldReg (fieldX w) (fieldY w)⟩,
    ⟨0xF00F, 0x8001, fun w => .orReg (fieldX w) (fieldY w)⟩,
    ⟨0xF00F, 0x8002, fun w => .andReg (fieldX w) (fieldY w)⟩,
    ⟨0xF00F, 0x8003, fun w => .xorReg (fieldX w) (fieldY w)⟩,
    ⟨0xF00F, 0x8004, fun w => .addReg (fieldX w) (fieldY w)⟩,
    ⟨0xF00F, 0x8005, fun w => .subReg (fieldX w) (fieldY w)⟩,
    ⟨0xF00F, 0x8006, fun w => .shr (fieldX w) (fieldY w)⟩,
    ⟨0xF00F, 0x8007, fun w => .subnReg (fieldX w) (fieldY w)⟩,
    ⟨0xF00F, 0x800E, fun w => .shl (fieldX w) (fieldY w)⟩,
    ⟨0xF00F, 0x9000, fun w => .sneReg (fieldX w) (fieldY w)⟩ ]

/-- Families A to E of the map. -/
def opcodeRowsHigh : List OpcodeRow :=
  [ ⟨0xF000, 0xA000, fun w => .ldI (fieldNNN w)⟩,
    ⟨0xF000, 0xB000, fun w => .jpV0 (fieldNNN w)⟩,
    ⟨0xF000, 0xC000, fun w => .rnd (fieldX w) (fieldNN w)⟩,
    ⟨0xF000, 0xD000, fun w => .drw (fieldX w) (fieldY w) (fieldN w)⟩,
    ⟨0xF0FF, 0xE09E, fun w => .skp (fieldX w)⟩,
    ⟨0xF0FF, 0xE0A1, fun w => .sknp (fieldX w)⟩ ]

/-- Family F of the map. -/
def opcodeRowsF : List OpcodeRow :=
  [ ⟨0xF0FF, 0xF007, fun w => .ldVxDt (fieldX w)⟩,
    ⟨0xF0FF, 0xF00A, fun w => .ldVxK (fieldX w)⟩,
    ⟨0xF0FF, 0xF015, fun w => .ldDtVx (fieldX w)⟩,
    ⟨0xF0FF, 0xF018, fun w => .ldStVx (fieldX w)⟩,
    ⟨0xF0FF, 0xF01E, fun w => .addI (fieldX w)⟩,
    ⟨0xF0FF, 0xF029, fun w => .ldF (fieldX w)⟩,
    ⟨0xF0FF, 0xF033, fun w => .ldB (fieldX w)⟩,
    ⟨0xF0FF, 0xF055, fun w => .stRegs (fieldX w)⟩,
    ⟨0xF0FF, 0xF065, fun w => .ldRegs (fieldX w)⟩ ]

/-- The opcode map, 34 rows (R96). -/
def opcodeMap : List OpcodeRow :=
  opcodeRowsLow ++ opcodeRowsArith ++ opcodeRowsHigh ++ opcodeRowsF

/-! ### Decoding -/

/-- Decode, a total function of the 65536 words: the row that matches, else UNDEF (R95, R99). -/
def decode (w : Word) : Instr :=
  match opcodeMap.find? (·.matches w) with
  | some r => r.build w
  | none => .undef w

/-- Why a sequence of bytes holds no instruction at its start. -/
inductive DecodeReject where
  /-- Fewer than the two bytes every instruction has (R91). -/
  | truncated
deriving DecidableEq, Repr

/-- Decode the instruction at the start of a byte sequence, big-endian (R69), and give the rest; a
sequence of fewer than two bytes is rejected by name. -/
def decodeBytes : List Byte → Except DecodeReject (Instr × List Byte)
  | hi :: lo :: rest => .ok (decode (hi ++ lo), rest)
  | [_] => .error .truncated
  | [] => .error .truncated

/-! ### Encoding -/

/-- A word from its family digit, X, Y and last digit (R92, R93). -/
def wordXYN (f : BitVec 4) (x y : Reg) (n : BitVec 4) : Word :=
  f ++ digitOfReg x ++ digitOfReg y ++ n

/-- A word from its family digit, X and second byte (R92, R93). -/
def wordXNN (f : BitVec 4) (x : Reg) (nn : Byte) : Word := f ++ digitOfReg x ++ nn

/-- A word from its family digit and address (R92, R93). -/
def wordNNN (f : BitVec 4) (nnn : BitVec 12) : Word := f ++ nnn

/-- The word of an instruction, from the patterns of R96. -/
def encode : Instr → Word
  | .cls => 0x00E0
  | .ret => 0x00EE
  | .jp nnn => wordNNN 0x1 nnn
  | .call nnn => wordNNN 0x2 nnn
  | .seImm x nn => wordXNN 0x3 x nn
  | .sneImm x nn => wordXNN 0x4 x nn
  | .seReg x y => wordXYN 0x5 x y 0x0
  | .ldImm x nn => wordXNN 0x6 x nn
  | .addImm x nn => wordXNN 0x7 x nn
  | .ldReg x y => wordXYN 0x8 x y 0x0
  | .orReg x y => wordXYN 0x8 x y 0x1
  | .andReg x y => wordXYN 0x8 x y 0x2
  | .xorReg x y => wordXYN 0x8 x y 0x3
  | .addReg x y => wordXYN 0x8 x y 0x4
  | .subReg x y => wordXYN 0x8 x y 0x5
  | .shr x y => wordXYN 0x8 x y 0x6
  | .subnReg x y => wordXYN 0x8 x y 0x7
  | .shl x y => wordXYN 0x8 x y 0xE
  | .sneReg x y => wordXYN 0x9 x y 0x0
  | .ldI nnn => wordNNN 0xA nnn
  | .jpV0 nnn => wordNNN 0xB nnn
  | .rnd x nn => wordXNN 0xC x nn
  | .drw x y n => wordXYN 0xD x y (digitOfReg n)
  | .skp x => wordXNN 0xE x 0x9E
  | .sknp x => wordXNN 0xE x 0xA1
  | .ldVxDt x => wordXNN 0xF x 0x07
  | .ldVxK x => wordXNN 0xF x 0x0A
  | .ldDtVx x => wordXNN 0xF x 0x15
  | .ldStVx x => wordXNN 0xF x 0x18
  | .addI x => wordXNN 0xF x 0x1E
  | .ldF x => wordXNN 0xF x 0x29
  | .ldB x => wordXNN 0xF x 0x33
  | .stRegs x => wordXNN 0xF x 0x55
  | .ldRegs x => wordXNN 0xF x 0x65
  | .undef w => w

/-- The high byte of a word, the one at the lower address (R69). -/
def hiByte (w : Word) : Byte := w.extractLsb' 8 8

/-- The low byte of a word, the one at the higher address (R69). -/
def loByte (w : Word) : Byte := w.extractLsb' 0 8

/-- The two bytes of an instruction as memory holds them (R69, R91). -/
def encodeBytes (i : Instr) : List Byte := [hiByte (encode i), loByte (encode i)]

/-! ### Words as spec/opcode_table.json numbers them -/

/-- The 16-bit word given by the low `nbits` bits of `w`, the bits above them 0. -/
def tableWord (nbits w : Nat) : Word := BitVec.ofNat 16 (w % 2 ^ nbits)

/-- The bytes of that word in memory order; none when `nbits` is more than an instruction has (log
entry 16). -/
def tableBytes (nbits w : Nat) : List Byte :=
  if nbits ≤ 16 then [hiByte (tableWord nbits w), loByte (tableWord nbits w)] else []

/-- What the decoder reads from the word `w` of an opcode-table row of `nbits` bits. -/
def decodeTableWord (nbits w : Nat) : Option Instr :=
  match decodeBytes (tableBytes nbits w) with
  | .ok (i, _) => some i
  | .error _ => none

end Sys2Proof
end

