-- ==== Sys2Proof/Config.lean ====
section
/-! DEFINITION. The parameters of the machine (spec/00_scope.md R6, R7): the fixed ones with the
value this hardware takes, the spec's default for the open ones, and the free value `rand`. -/

namespace Sys2Proof

/-- The five quirk flags (10_state.md R36). Each is read by one instruction: `rs` by 8XY6, `ls` by
8XYE, `jo` by BNNN, `si` by FX55, `li` by FX65. -/
structure Quirks where
  rs : Bool
  ls : Bool
  jo : Bool
  si : Bool
  li : Bool
deriving DecidableEq, Repr

/-- The FONT parameter: 80 bytes (R7). -/
abbrev Font := Vector Byte 80

namespace Config

/-- MEM_SIZE (R6). -/
def memSize : Nat := 4096

/-- FONT_BASE (R6). -/
def fontBase : Nat := 0x050

/-- PROG_BASE, where a program is loaded and where execution starts (R6). -/
def progBase : Nat := 0x200

/-- ROM_MAX: the longest ROM the loader may supply (R6, R243). -/
def romMax : Nat := 3584

/-- The spec's default quirk settings (R7, decision D12). DESIGN CHOICE (log entry 2): used only by
`State.reset`; the flags are fields of every state. -/
def defaultQuirks : Quirks := { rs := true, ls := true, jo := true, si := false, li := false }

/-- The 80 bytes of the spec's default FONT, glyphs 0 to F (20_memory.md R66). DESIGN CHOICE (log
entry 1): the spec's own source does not give them, and a claim on a glyph's shape takes FONT as a
premise. -/
def defaultFontBytes : List Byte :=
  [0xF0, 0x90, 0x90, 0x90, 0xF0] ++ [0x20, 0x60, 0x20, 0x20, 0x70] ++
  [0xF0, 0x10, 0xF0, 0x80, 0xF0] ++ [0xF0, 0x10, 0xF0, 0x10, 0xF0] ++
  [0x90, 0x90, 0xF0, 0x10, 0x10] ++ [0xF0, 0x80, 0xF0, 0x10, 0xF0] ++
  [0xF0, 0x80, 0xF0, 0x90, 0xF0] ++ [0xF0, 0x10, 0x20, 0x40, 0x40] ++
  [0xF0, 0x90, 0xF0, 0x90, 0xF0] ++ [0xF0, 0x90, 0xF0, 0x10, 0xF0] ++
  [0xF0, 0x90, 0xF0, 0x90, 0x90] ++ [0xE0, 0x90, 0xE0, 0x90, 0xE0] ++
  [0xF0, 0x80, 0x80, 0x80, 0xF0] ++ [0xE0, 0x90, 0x90, 0x90, 0xE0] ++
  [0xF0, 0x80, 0xF0, 0x80, 0xF0] ++ [0xF0, 0x80, 0xF0, 0x80, 0x80]

/-- The default FONT as the argument the Reset event takes (R66, R240). -/
def defaultFont : Font := ⟨defaultFontBytes.toArray, rfl⟩

/-- The byte CXNN draws when the host has supplied none: FREE VALUE, the `n`-th such draw (42_alu.md
R153, 60_exceptions.md R220: "any value 0..255, under no law the model may use"). No body, so no
proof can see it (log entry 5). -/
opaque freeRand : Nat → Byte

end Config

end Sys2Proof
end

