-- ==== Sys2Proof/Machine/State.lean ====
section
/-! DEFINITION. The state of the machine as plain data (spec/10_state.md), the host's events
(spec/60_exceptions.md R216), the reasons a step can stop, and the state after reset (R45). -/

namespace Sys2Proof.Machine

/-- Main memory (20_memory.md R60): the bytes that differ from what an unlisted address reads as
(`Memory.unlisted`), by rising address. The canonical form is `Memory.wf`. -/
abbrev Memory := List Host.Cell

/-- The framebuffer: `FB[y][x]`, 32 rows of 64 pixels, row 0 at the top and column 0 at the left (R39). -/
abbrev Display := Vector (Vector Bool 64) 32

/-- An event the host raises on the core (60_exceptions.md R216). -/
inductive HostEvent where
  /-- `Reset(FONT, ROM, Q)` (R240). -/
  | reset (font : Font) (rom : List Byte) (q : Quirks)
  /-- `Step` (R217); its `rand` is the next byte of `State.randIn` (log entry 5). -/
  | step
  /-- `Tick` (R218). -/
  | tick
  /-- `KeyDown(k)` (R219). -/
  | keyDown (k : Key)
  /-- `KeyUp(k)` (R219). -/
  | keyUp (k : Key)
  /-- `PresentAck` (R221). -/
  | presentAck
deriving DecidableEq, Repr

/-- The state: what the spec gives the core (10_state.md R20 to R45), the key state of the provider
(R44), and last the model's own four fields, which stand for the host. -/
structure State where
  /-- V0 to VF (R20). -/
  v : Vector Byte 16
  /-- I (R29). -/
  idx : Word
  /-- PC (R24). -/
  pc : Word
  /-- SP, the number of return addresses held (R30). -/
  sp : Fin 17
  /-- STACK (R30). -/
  stack : Vector Word 16
  /-- DT, the delay timer (R32). -/
  dt : Byte
  /-- ST, the sound timer (R32). -/
  st : Byte
  /-- Q, the quirk flags (R36). -/
  q : Quirks
  /-- FB (R39). -/
  fb : Display
  /-- DIRTY (R40). -/
  dirty : Bool
  /-- WAIT (R38). -/
  wait : Bool
  /-- WAITX (R38). -/
  waitX : Reg
  /-- HALTED (R37). -/
  halted : Bool
  /-- FCAUSE (R37, R201). -/
  fcause : BitVec 3
  /-- FPC (R37). -/
  fpc : Word
  /-- FOP (R37). -/
  fop : Word
  /-- MEM (R60). -/
  mem : Memory
  /-- KEYS, held by the key-state provider (R44, R180). -/
  keys : Vector Bool 16
  /-- The host's events still to be applied, in order (log entry 4). -/
  pending : List HostEvent
  /-- The `rand` bytes the host has supplied for the draws to come (log entry 5). -/
  randIn : List Byte
  /-- How many draws were taken as free values, the host having supplied none (log entry 5). -/
  draws : Nat
  /-- How many `frame_event` outputs the core has emitted (R174, log entry 6). -/
  frameEvents : Nat
deriving DecidableEq, Repr

/-- The reasons a step can stop with no next state. There are none: each of the four fatal faults of
60_exceptions.md R201 is a NEXT state, the fault latch loaded as R206 says, because the halted machine
goes on taking Ticks and host events (R207; log entry 8). Raised by no one; safe. -/
inductive Fault
deriving DecidableEq, Repr

/-- The reasons a step is refused. -/
inductive Refusal where
  /-- Raised by the dispatcher for an instruction without a meaning (none is left). Safe. -/
  | notModelled (mnemonic : String)
  /-- Raised by a Reset event with a ROM of more than 3584 bytes: the loader refuses it and no run
  exists (70_reset_and_hazards.md R243, 93 U23; log entry 10). Safe. -/
  | romTooLong
deriving DecidableEq, Repr

/-- The state right after Reset, before the first fetch (10_state.md R45): the default FONT, the
default quirk flags, an empty ROM, all keys up (log entries 1, 2, 3, 12). -/
def State.reset : State where
  v := Vector.replicate 16 0
  idx := 0
  pc := BitVec.ofNat 16 Config.progBase
  sp := 0
  stack := Vector.replicate 16 0
  dt := 0
  st := 0
  q := Config.defaultQuirks
  fb := Vector.replicate 32 (Vector.replicate 64 false)
  dirty := false
  wait := false
  waitX := 0
  halted := false
  fcause := 0
  fpc := 0
  fop := 0
  mem := []
  keys := Vector.replicate 16 false
  pending := []
  randIn := []
  draws := 0
  frameEvents := 0

end Sys2Proof.Machine
end

