-- ==== Sys2Proof/Machine/Ops.lean ====
section
/-! DEFINITION. The named operations over memory, registers, the call stack, the display, the fault
latch and the draw (spec/00_scope.md R11, R12; 10_state.md; 20_memory.md; 60_exceptions.md R206). -/

namespace Sys2Proof.Machine

/-! ### Main memory -/

/-- What an address that memory does not list reads as: its reset contents with the default FONT and
no ROM (10_state.md R45: FONT at 0x050..0x09F, every other byte 0; log entries 1 and 11). -/
def Memory.unlisted (a : Nat) : Byte :=
  if Config.fontBase ≤ a ∧ a < Config.fontBase + 80 then
    Config.defaultFontBytes.getD (a - Config.fontBase) 0
  else 0

/-- The canonical form from address `lo` on: addresses rising, inside 0x000..0xFFF (R60), and no entry
equal to what its address reads as when unlisted. -/
def Memory.wfFrom (lo : Nat) : Memory → Bool
  | [] => true
  | (a, b) :: m => decide (lo ≤ a) && decide (a < Config.memSize) && (b != unlisted a) && wfFrom (a + 1) m

/-- The canonical form of memory. -/
def Memory.wf (m : Memory) : Bool := wfFrom 0 m

/-- `MEM[a]` (R11, R60). Callers check the range (R63, R64). -/
def Memory.read : Memory → Nat → Byte
  | [], a => unlisted a
  | (k, c) :: m, a => if k = a then c else read m a

/-- Memory without an entry for `a`. -/
def Memory.without (m : Memory) (a : Nat) : Memory := m.filter (fun e => e.1 != a)

/-- Memory with an entry for `a` put in its place. -/
def Memory.place : Memory → Nat → Byte → Memory
  | [], a, b => [(a, b)]
  | (k, c) :: m, a, b => if a < k then (a, b) :: (k, c) :: m else (k, c) :: place m a b

/-- `MEM[a] <- b` (R11), keeping the canonical form. Callers check the range (R63, R64). -/
def Memory.write (m : Memory) (a : Nat) (b : Byte) : Memory :=
  if b = unlisted a then m.without a else (m.without a).place a b

/-- Store bytes at ascending addresses from `base` (R70, R167). -/
def Memory.writeBytes (m : Memory) (base : Nat) : List Byte → Memory
  | [] => m
  | b :: bs => writeBytes (m.write base b) (base + 1) bs

/-- The highest address of a data access lies outside memory (R63: admitted only if `hi ≤ 0xFFF`). The
address is a mathematical integer, never reduced (R11, R62). -/
def pastEnd (hi : Nat) : Bool := decide (0xFFF < hi)

/-- `MemRead(a, 2)`: the word at `a`, the byte at the lower address in bits 15 to 8 (R11, R69). -/
def Memory.readWord (m : Memory) (a : Nat) : Word := m.read a ++ m.read (a + 1)

/-! ### Registers -/

/-- `V[x]` (R20). -/
def State.getV (s : State) (x : Reg) : Byte := s.v.get x

/-- `V[x] <- b` (R20). -/
def State.setV (s : State) (x : Reg) (b : Byte) : State := { s with v := s.v.set x.val b x.isLt }

/-- All registers at once. -/
def State.setRegs (s : State) (v : Vector Byte 16) : State := { s with v := v }

/-- VF (R21). -/
def regF : Reg := 15

/-- V0. -/
def reg0 : Reg := 0

/-- `I <- w` (R29). -/
def State.setI (s : State) (w : Word) : State := { s with idx := w }

/-- `PC <- w` (R24). -/
def State.setPc (s : State) (w : Word) : State := { s with pc := w }

/-- `DT <- b` (R32). -/
def State.setDt (s : State) (b : Byte) : State := { s with dt := b }

/-- `ST <- b` (R32). -/
def State.setSt (s : State) (b : Byte) : State := { s with st := b }

/-- Main memory replaced. -/
def State.setMem (s : State) (m : Memory) : State := { s with mem := m }

/-- `WAIT` and `WAITX` (R38). -/
def State.setWait (s : State) (w : Bool) (x : Reg) : State := { s with wait := w, waitX := x }

/-- `DIRTY <- b` (R40). -/
def State.setDirty (s : State) (b : Bool) : State := { s with dirty := b }

/-- `KEYS[k] <- b` (R180); only the host's key events do this. -/
def State.setKey (s : State) (k : Key) (b : Bool) : State :=
  { s with keys := s.keys.set k.val b k.isLt }

/-- `KEYS[k]` (R180). -/
def State.getKey (s : State) (k : Key) : Bool := s.keys.get k

/-- The host's schedule replaced (log entry 4). -/
def State.setPending (s : State) (es : List HostEvent) : State := { s with pending := es }

/-- HALTED alone replaced; only the placing of a word under the fetch (log entry 14) does this. -/
def State.setHalted (s : State) (b : Bool) : State := { s with halted := b }

/-! ### Call stack (R30, R31) -/

/-- STACK and SP replaced. -/
def State.setCalls (s : State) (stack : Vector Word 16) (sp : Fin 17) : State :=
  { s with stack := stack, sp := sp }

/-- Push: `STACK[SP] <- t; SP <- SP + 1`; none when SP = 16 (R31). -/
def State.push (s : State) (t : Word) : Option State :=
  if h : s.sp.val < 16 then
    some (s.setCalls (s.stack.set s.sp.val t h) ⟨s.sp.val + 1, by omega⟩)
  else none

/-- Pop: `SP <- SP − 1`, and the entry just uncovered, which stays in STACK; none when SP = 0 (R31). -/
def State.pop (s : State) : Option (Word × State) :=
  if h : 0 < s.sp.val then
    some (s.stack[s.sp.val - 1]'(by omega), s.setCalls s.stack ⟨s.sp.val - 1, by omega⟩)
  else none

/-! ### Display (R39, R40, R174) -/

/-- FB and DIRTY written by a drawing or clearing instruction, which emits one `frame_event` (R174). -/
def State.present (s : State) (fb : Display) (dirty : Bool) : State :=
  { s with fb := fb, dirty := dirty, frameEvents := s.frameEvents + 1 }

/-! ### The draw (R153, R220) -/

/-- The draw of CXNN: the next byte the host supplied, or, when it supplied none, the next free value
(log entry 5). -/
def State.drawRand (s : State) : Byte × State :=
  match s.randIn with
  | r :: rest => (r, { s with randIn := rest })
  | [] => (Config.freeRand s.draws, { s with draws := s.draws + 1 })

/-! ### Fault entry (R12, R201, R206)

The spec has no return beside it: no handler, no saved-state stack, no return-from-trap instruction;
only Reset clears the latch (R207, R209). -/

/-- The four fatal faults (R201). -/
inductive FaultKind where
  /-- Raised by 2NNN with SP = 16 (R202). -/
  | stackOverflow
  /-- Raised by 00EE with SP = 0 (R203). -/
  | stackUnderflow
  /-- Raised by the fetch with PC above 0xFFE (R204). -/
  | fetchBounds
  /-- Raised by DXYN, FX33, FX55, FX65 whose highest address exceeds 0xFFF (R205). -/
  | dataBounds
deriving DecidableEq, Repr

/-- The cause code FCAUSE takes (R201). -/
def faultCode : FaultKind → BitVec 3
  | .stackOverflow => 1
  | .stackUnderflow => 2
  | .fetchBounds => 3
  | .dataBounds => 4

/-- `raise F(a, w)`: the fault latch is loaded and nothing else changes; PC stays as the fetch left it
(R206). -/
def State.raiseFault (s : State) (k : FaultKind) (a w : Word) : State :=
  { s with halted := true, fcause := faultCode k, fpc := a, fop := w }

/-- The address `a` of the instruction in execution: PC holds `npc = (a + 2) mod 2^16` (R13, R24; log
entry 9). -/
def State.instrAddr (s : State) : Word := s.pc - 2

/-- The fault an instruction raises while it executes, with its own address and opcode (R206; log
entry 9). -/
def State.execFault (s : State) (k : FaultKind) (i : Instr) : State :=
  s.raiseFault k s.instrAddr (encode i)

end Sys2Proof.Machine
end

