-- ==== Sys2Proof/Machine/Operands.lean ====
section
/-! DEFINITION. Operand forms: the shift source, the jump offset, glyph addresses, decimal digits, data
addresses, register lists, key selection, sprite coordinates and bits (spec files 40 to 45). -/

namespace Sys2Proof.Machine

/-- The value 8XY6 and 8XYE shift: VY with their quirk enabled, VX otherwise (R149, R151). -/
def shiftSource (quirk : Bool) (vx vy : Byte) : Byte := if quirk then vy else vx

/-- `zext_16(NNN)` (R94). -/
def address (nnn : BitVec 12) : Word := nnn.setWidth 16

/-- `zext_16` of a register value. -/
def zextByte (b : Byte) : Word := b.setWidth 16

/-- The register BNNN adds: V0 with Q.jo enabled, otherwise VX, X the top digit of NNN (R98, R123). -/
def offsetReg (jo : Bool) (nnn : BitVec 12) : Reg :=
  if jo then reg0 else regOfDigit (nnn.extractLsb' 8 4)

/-- The address of the glyph of the low digit of `b`: `0x050 + (b AND 0x0F) × 5` (R162). -/
def glyphAddr (b : Byte) : Word := BitVec.ofNat 16 (Config.fontBase + (b &&& 0x0F).toNat * 5)

/-- The three decimal digits of a byte, hundreds first (R163). -/
def decimalDigits (b : Byte) : List Byte :=
  [ BitVec.ofNat 8 (b.toNat / 100), BitVec.ofNat 8 (b.toNat / 10 % 10), BitVec.ofNat 8 (b.toNat % 10) ]

/-- The effective address `i0 + k`, a mathematical integer (R11, R167). -/
def State.dataAddr (s : State) (k : Nat) : Nat := s.idx.toNat + k

/-- The values of V0 to VX in order (R164). -/
def State.regsUpTo (s : State) (x : Reg) : List Byte := s.v.toList.take (x.val + 1)

/-- `V[k] <- MemRead(base + k)` for the first `n` registers, ascending (R165). -/
def loadRegs (m : Memory) (base : Nat) (v : Vector Byte 16) : Nat → Vector Byte 16
  | 0 => v
  | n + 1 => (loadRegs m base v n).setIfInBounds n (m.read (base + n))

/-- `held`: the whole of `b` names a key value and that key is down (R181, decision D9). -/
def State.keyHeld (s : State) (b : Byte) : Bool :=
  if h : b.toNat ≤ 0x0F then s.getKey ⟨b.toNat, by omega⟩ else false

/-- The display column of sprite column `c` drawn from `vx` (R170). -/
def spriteCol (vx : Byte) (c : Nat) : Fin 64 := ⟨(vx.toNat + c) % 64, by omega⟩

/-- The display row of sprite row `r` drawn from `vy` (R170). -/
def spriteRow (vy : Byte) (r : Nat) : Fin 32 := ⟨(vy.toNat + r) % 32, by omega⟩

/-- Sprite column `c` of a sprite byte: bit `7 − c`, bit 7 the leftmost (R170). -/
def spriteBit (b : Byte) (c : Nat) : Bool := b.getLsbD (7 - c)

/-- `FB[y][x]` (R39). -/
def pixel (fb : Display) (y : Fin 32) (x : Fin 64) : Bool := (fb.get y).get x

/-- `FB[y][x] <- b` (R39). -/
def setPixel (fb : Display) (y : Fin 32) (x : Fin 64) (b : Bool) : Display :=
  fb.set y.val ((fb.get y).set x.val b x.isLt) y.isLt

/-- The blank display (R171). -/
def blankDisplay : Display := Vector.replicate 32 (Vector.replicate 64 false)

end Sys2Proof.Machine
end

