-- ==== Sys2Proof/Machine/Alu.lean ====
section
/-! DEFINITION. Register load, arithmetic, logic, shift and random (spec/42_alu.md R140 to R153). Every
operand is read from `s`, the state before any write (R14); the writes stand in the order of the rule,
the last one written outermost. -/

namespace Sys2Proof.Machine

/-- Write a result to VX and then a flag to VF (8XY4, 8XY6, 8XYE: the flag wins when X = F; R14, R22). -/
def State.resultThenFlag (s : State) (x : Reg) (result flag : Byte) : State :=
  (s.setV x result).setV regF flag

/-- Write a flag to VF and then a result to VX (8XY5, 8XY7: the result wins when X = F; R14, R22). -/
def State.flagThenResult (s : State) (x : Reg) (flag result : Byte) : State :=
  (s.setV regF flag).setV x result

/-- 6XNN LD VX, NN (R141). -/
def execLdImm (x : Reg) (nn : Byte) (s : State) : Host.Outcome State Fault Refusal :=
  .next (s.setV x nn)

/-- 7XNN ADD VX, NN (R142): VF is not written as a flag. -/
def execAddImm (x : Reg) (nn : Byte) (s : State) : Host.Outcome State Fault Refusal :=
  .next (s.setV x (s.getV x + nn))

/-- 8XY0 LD VX, VY (R143). -/
def execLdReg (x y : Reg) (s : State) : Host.Outcome State Fault Refusal :=
  .next (s.setV x (s.getV y))

/-- 8XY1 OR VX, VY (R144). -/
def execOrReg (x y : Reg) (s : State) : Host.Outcome State Fault Refusal :=
  .next (s.setV x (s.getV x ||| s.getV y))

/-- 8XY2 AND VX, VY (R145). -/
def execAndReg (x y : Reg) (s : State) : Host.Outcome State Fault Refusal :=
  .next (s.setV x (s.getV x &&& s.getV y))

/-- 8XY3 XOR VX, VY (R146). -/
def execXorReg (x y : Reg) (s : State) : Host.Outcome State Fault Refusal :=
  .next (s.setV x (s.getV x ^^^ s.getV y))

/-- 8XY4 ADD VX, VY (R147). -/
def execAddReg (x y : Reg) (s : State) : Host.Outcome State Fault Refusal :=
  .next (s.resultThenFlag x (s.getV x + s.getV y) (carryFlag (s.getV x) (s.getV y)))

/-- 8XY5 SUB VX, VY (R148). -/
def execSubReg (x y : Reg) (s : State) : Host.Outcome State Fault Refusal :=
  .next (s.flagThenResult x (greaterFlag (s.getV x) (s.getV y)) (s.getV x - s.getV y))

/-- 8XY6 SHR VX, VY (R149). -/
def execShr (x y : Reg) (s : State) : Host.Outcome State Fault Refusal :=
  let src := shiftSource s.q.rs (s.getV x) (s.getV y)
  .next (s.resultThenFlag x (src >>> 1) (shrFlag src))

/-- 8XY7 SUBN VX, VY (R150). -/
def execSubnReg (x y : Reg) (s : State) : Host.Outcome State Fault Refusal :=
  .next (s.flagThenResult x (greaterFlag (s.getV y) (s.getV x)) (s.getV y - s.getV x))

/-- 8XYE SHL VX, VY (R151). -/
def execShl (x y : Reg) (s : State) : Host.Outcome State Fault Refusal :=
  let src := shiftSource s.q.ls (s.getV x) (s.getV y)
  .next (s.resultThenFlag x (src <<< 1) (shlFlag src))

/-- CXNN RND VX, NN (R153). -/
def execRnd (x : Reg) (nn : Byte) (s : State) : Host.Outcome State Fault Refusal :=
  .next (s.drawRand.2.setV x (s.drawRand.1 &&& nn))

end Sys2Proof.Machine
end

