-- ==== Sys2Proof/Machine/Display.lean ====
section
/-! DEFINITION. The display instructions and the XOR-sprite collision engine (spec/44_display.md R170
to R174). A draw in progress is the framebuffer and the collision so far. -/

namespace Sys2Proof.Machine

/-- One sprite bit equal to 1 onto one pixel: an on pixel goes off and collides, an off pixel goes on
(R172). -/
def drawPixel (d : Display × Bool) (y : Fin 32) (x : Fin 64) : Display × Bool :=
  if pixel d.1 y x then (setPixel d.1 y x false, true) else (setPixel d.1 y x true, d.2)

/-- The first `n` columns of a sprite row `b`, ascending (R172). -/
def drawCols (d : Display × Bool) (vx : Byte) (y : Fin 32) (b : Byte) : Nat → Display × Bool
  | 0 => d
  | c + 1 =>
    let d' := drawCols d vx y b c
    if spriteBit b c then drawPixel d' y (spriteCol vx c) else d'

/-- The first `n` rows of the sprite at `base`, ascending (R172). -/
def drawRows (m : Memory) (base : Nat) (d : Display × Bool) (vx vy : Byte) : Nat → Display × Bool
  | 0 => d
  | r + 1 => drawCols (drawRows m base d vx vy r) vx (spriteRow vy r) (m.read (base + r)) 8

/-- 00E0 CLS (R171). -/
def execCls (s : State) : Host.Outcome State Fault Refusal := .next (s.present blankDisplay false)

/-- DXYN DRW VX, VY, N (R172): the coordinates are the registers before VF is written (R14). -/
def execDrw (x y : Reg) (n : Fin 16) (s : State) : Host.Outcome State Fault Refusal :=
  if n.val ≥ 1 ∧ pastEnd (s.dataAddr (n.val - 1)) then .next (s.execFault .dataBounds (.drw x y n))
  else
    let d := drawRows s.mem (s.dataAddr 0) (s.fb, false) (s.getV x) (s.getV y) n.val
    .next ((s.setV regF (flagByte d.2)).present d.1 true)

end Sys2Proof.Machine
end

