-- ==== Sys2Proof/Machine/Flow.lean ====
section
/-! DEFINITION. Jumps, calls, returns and the undefined word (spec/40_flow.md R120 to R123,
30_encoding.md R99). PC holds `npc` when a meaning begins (R13, R24). -/

namespace Sys2Proof.Machine

/-- 00EE RET (R120). -/
def execRet (s : State) : Host.Outcome State Fault Refusal :=
  match s.pop with
  | none => .next (s.execFault .stackUnderflow .ret)
  | some (t, s') => .next (s'.setPc t)

/-- 1NNN JP NNN (R121). -/
def execJp (nnn : BitVec 12) (s : State) : Host.Outcome State Fault Refusal :=
  .next (s.setPc (address nnn))

/-- 2NNN CALL NNN (R122): the address pushed is `npc`. -/
def execCall (nnn : BitVec 12) (s : State) : Host.Outcome State Fault Refusal :=
  match s.push s.pc with
  | none => .next (s.execFault .stackOverflow (.call nnn))
  | some s' => .next (s'.setPc (address nnn))

/-- BNNN JP V0, NNN (R123): the sum is not reduced to 12 bits. -/
def execJpV0 (nnn : BitVec 12) (s : State) : Host.Outcome State Fault Refusal :=
  .next (s.setPc (address nnn + zextByte (s.getV (offsetReg s.q.jo nnn))))

/-- UNDEF (R99): nothing; PC stays `npc`. -/
def execUndef (_w : Word) (s : State) : Host.Outcome State Fault Refusal := .next s

end Sys2Proof.Machine
end

