-- ==== Sys2Proof/Machine/Index.lean ====
section
/-! DEFINITION. The index register, loads and stores (spec/43_index_memory.md R160 to R167). The range
of a data access is checked before anything changes (20_memory.md R64). -/

namespace Sys2Proof.Machine

/-- The quirk increment of FX55 and FX65: `I <- (i0 + X) mod 2^16` when the flag is set (R164 to R166). -/
def State.bumpI (s : State) (quirk : Bool) (x : Reg) : State :=
  if quirk then s.setI (s.idx + BitVec.ofNat 16 x.val) else s

/-- ANNN LD I, NNN (R160). -/
def execLdI (nnn : BitVec 12) (s : State) : Host.Outcome State Fault Refusal :=
  .next (s.setI (address nnn))

/-- FX1E ADD I, VX (R161). -/
def execAddI (x : Reg) (s : State) : Host.Outcome State Fault Refusal :=
  .next ((s.setI (s.idx + zextByte (s.getV x))).setV regF (indexFlag s.idx (s.getV x)))

/-- FX29 LD F, VX (R162). -/
def execLdF (x : Reg) (s : State) : Host.Outcome State Fault Refusal :=
  .next (s.setI (glyphAddr (s.getV x)))

/-- FX33 LD B, VX (R163). -/
def execLdB (x : Reg) (s : State) : Host.Outcome State Fault Refusal :=
  if pastEnd (s.dataAddr 2) then .next (s.execFault .dataBounds (.ldB x))
  else .next (s.setMem (s.mem.writeBytes (s.dataAddr 0) (decimalDigits (s.getV x))))

/-- FX55 LD [I], VX (R164). -/
def execStRegs (x : Reg) (s : State) : Host.Outcome State Fault Refusal :=
  if pastEnd (s.dataAddr x.val) then .next (s.execFault .dataBounds (.stRegs x))
  else .next ((s.setMem (s.mem.writeBytes (s.dataAddr 0) (s.regsUpTo x))).bumpI s.q.si x)

/-- FX65 LD VX, [I] (R165). -/
def execLdRegs (x : Reg) (s : State) : Host.Outcome State Fault Refusal :=
  if pastEnd (s.dataAddr x.val) then .next (s.execFault .dataBounds (.ldRegs x))
  else .next ((s.setRegs (loadRegs s.mem (s.dataAddr 0) s.v (x.val + 1))).bumpI s.q.li x)

end Sys2Proof.Machine
end

