-- ==== Sys2Proof/Machine/Keypad.lean ====
section
/-! DEFINITION. Keypad and timer instructions (spec/45_keypad_timer.md R180 to R188). -/

namespace Sys2Proof.Machine

/-- EX9E SKP VX (R181). -/
def execSkp (x : Reg) (s : State) : Host.Outcome State Fault Refusal :=
  .next (s.skipIf (s.keyHeld (s.getV x)))

/-- EXA1 SKNP VX (R182). -/
def execSknp (x : Reg) (s : State) : Host.Outcome State Fault Refusal :=
  .next (s.skipIf (!s.keyHeld (s.getV x)))

/-- FX07 LD VX, DT (R183). -/
def execLdVxDt (x : Reg) (s : State) : Host.Outcome State Fault Refusal :=
  .next (s.setV x s.dt)

/-- FX0A LD VX, K (R184): the Step that fetches it enters the wait; the KeyDown event that ends the wait
writes VX (R185, Machine/Events.lean). -/
def execLdVxK (x : Reg) (s : State) : Host.Outcome State Fault Refusal :=
  .next (s.setWait true x)

/-- FX15 LD DT, VX (R186). -/
def execLdDtVx (x : Reg) (s : State) : Host.Outcome State Fault Refusal :=
  .next (s.setDt (s.getV x))

/-- FX18 LD ST, VX (R187). -/
def execLdStVx (x : Reg) (s : State) : Host.Outcome State Fault Refusal :=
  .next (s.setSt (s.getV x))

end Sys2Proof.Machine
end

