-- ==== Sys2Proof/Machine/Events.lean ====
section
/-! DEFINITION. The host's events other than Step (spec/60_exceptions.md R216 to R221, 45_keypad_timer.md
R185, 70_reset_and_hazards.md R240), and how the next one is chosen. -/

namespace Sys2Proof.Machine

/-- A timer counts down to 0 and stays there (R32, R218). -/
def countDown (b : Byte) : Byte := if b = 0 then 0 else b - 1

/-- Tick: both timers, each independently (R218). -/
def State.tick (s : State) : State := (s.setDt (countDown s.dt)).setSt (countDown s.st)

/-- KeyDown(k): `KEYS[k] <- 1`, and while waiting also `V[WAITX] <- k; WAIT <- 0` (R185, R219). -/
def State.keyDown (s : State) (k : Key) : State :=
  let t := s.setKey k true
  if t.wait then (t.setV t.waitX (BitVec.ofNat 8 k.val)).setWait false t.waitX else t

/-- KeyUp(k): `KEYS[k] <- 0` and nothing else (R219). -/
def State.keyUp (s : State) (k : Key) : State := s.setKey k false

/-- PresentAck: `DIRTY <- 0` (R221). -/
def State.presentAck (s : State) : State := s.setDirty false

/-- Memory after Reset: the font at 0x050, the ROM at 0x200, every other byte 0 (R240). -/
def resetMemory (font : Font) (rom : List Byte) : Memory :=
  (Memory.writeBytes [] Config.fontBase font.toList).writeBytes Config.progBase rom

/-- Reset(FONT, ROM, Q): everything the core holds takes its reset value (R240); KEYS and the host's own
fields are not touched (R240, log entry 17). -/
def State.resetEvent (s : State) (font : Font) (rom : List Byte) (q : Quirks) : State :=
  { State.reset with
    mem := resetMemory font rom
    q := q
    keys := s.keys
    pending := s.pending
    randIn := s.randIn
    draws := s.draws
    frameEvents := s.frameEvents }

/-- What happens next: an instruction Step from the given state, or an event that is over at once. -/
inductive Turn where
  | instrStep (s : State)
  | over (o : Host.Outcome State Fault Refusal)

/-- Take the host's next event off the schedule and apply it; with none left the host raises a Step
(R216; log entry 4). A Reset with an over-long ROM is refused: no run exists (R243; log entry 10). -/
def State.nextTurn (s : State) : Turn :=
  match s.pending with
  | [] => .instrStep s
  | .step :: es => .instrStep (s.setPending es)
  | .tick :: es => .over (.next (s.setPending es).tick)
  | .keyDown k :: es => .over (.next ((s.setPending es).keyDown k))
  | .keyUp k :: es => .over (.next ((s.setPending es).keyUp k))
  | .presentAck :: es => .over (.next (s.setPending es).presentAck)
  | .reset font rom q :: es =>
    if rom.length ≤ Config.romMax then .over (.next ((s.setPending es).resetEvent font rom q))
    else .over (.refused .romTooLong)

end Sys2Proof.Machine
end

