-- ==== Sys2Proof/Machine/Fetch.lean ====
section
/-! DEFINITION. The part of a Step before execution: the halted and waiting checks, the fetch and its
bounds, the advance of PC (spec/60_exceptions.md R207, R208, R217; 30_encoding.md R90), and where a word
must stand for the next Step to fetch it. -/

namespace Sys2Proof.Machine

/-- How a Step begins: it is over at once, in the given state, or it executes an instruction. -/
inductive StepStart where
  | over (s : State)
  | execute (i : Instr) (s : State)
deriving DecidableEq, Repr

/-- A fetch at PC succeeds: both bytes lie in memory (R27, R63). -/
def State.fetchable (s : State) : Bool := decide (s.pc.toNat ≤ 0xFFE)

/-- The opcode at PC (R69, R90). -/
def State.fetchWord (s : State) : Word := s.mem.readWord s.pc.toNat

/-- The start of a Step: nothing while halted (R207), nothing while waiting (R185), FetchBounds with PC
unchanged above 0xFFE (R204), else the decoded instruction in the state with PC advanced by 2 (R90). -/
def State.beginStep (s : State) : StepStart :=
  if s.halted then .over s
  else if s.wait then .over s
  else if !s.fetchable then .over (s.raiseFault .fetchBounds s.pc 0)
  else .execute (decode s.fetchWord) (s.setPc (s.pc + 2))

/-- The state made ready to fetch: no host event pending, neither halted nor waiting, PC moved to 0x200
only where no fetch can succeed at it (log entry 14). -/
def State.readyToFetch (s : State) : State :=
  let t := ((s.setPending []).setHalted false).setWait false s.waitX
  if t.fetchable then t else t.setPc (BitVec.ofNat 16 Config.progBase)

/-- Bytes placed where the next Step fetches (log entry 14). -/
def State.placeInstr (s : State) (bs : List Byte) : State :=
  let t := s.readyToFetch
  t.setMem (t.mem.writeBytes t.pc.toNat bs)

end Sys2Proof.Machine
end

