-- ==== Sys2Proof/Machine/Outputs.lean ====
section
/-! DEFINITION. What the core shows the host that is a function of its state (spec/10_state.md R33,
00_scope.md R15, 60_exceptions.md R216). -/

namespace Sys2Proof.Machine

/-- The result of a Step (R15). -/
inductive StepResult where
  /-- Normal completion. -/
  | done
  /-- A blocking wait: FX0A was executed or the machine is waiting (R184, R185). -/
  | waiting
  /-- A fatal fault, with FCAUSE (R206, R207). -/
  | fault (cause : BitVec 3)
deriving DecidableEq, Repr

/-- The result returned by the Step that left this state: Fault(FCAUSE) when it raised a fault or found
the machine halted, Waiting when it executed FX0A or found the machine waiting, else Done (R15, R206,
R217; log entry 7). -/
def State.stepResult (s : State) : StepResult :=
  if s.halted then .fault s.fcause else if s.wait then .waiting else .done

/-- `sound_on = (ST ≠ 0)` (R33, R222). -/
def State.soundOn (s : State) : Bool := s.st != 0

end Sys2Proof.Machine
end

