-- ==== Sys2Proof/Machine/Step.lean ====
section
/-! DEFINITION. One step of the machine: the host's next event, a Step of the instruction engine among
them (spec/60_exceptions.md R216, R217). -/

namespace Sys2Proof.Machine

/-- A Step of the instruction engine (R217). -/
def instrStep (s : State) : Host.Outcome State Fault Refusal :=
  match s.beginStep with
  | .over t => .next t
  | .execute i t => exec i t

/-- One step: the host's next event; with none pending, a Step (log entry 4). -/
def step (s : State) : Host.Outcome State Fault Refusal :=
  match s.nextTurn with
  | .instrStep t => instrStep t
  | .over o => o

/-- The state with the opcode-table word `w` where `step` fetches its next instruction (log entry 14). -/
def State.withFetchWord (s : State) (nbits w : Nat) : State := s.placeInstr (tableBytes nbits w)

end Sys2Proof.Machine
end

