-- ==== Sys2Proof/Safety.lean ====
section
/-! DEFINITION. What a safe run and a legal state are, in the terms the statements use: the invariant
of the reachable states (spec/10_state.md R46), the ends of a run (70_reset_and_hazards.md R263), the
states in which a Step executes an instruction, and the bytes and pixels an instruction touches. -/

namespace Sys2Proof.Machine

/-- The invariant of the states (R46, with R27 for PC and R201, R207 for the latch). -/
structure State.Inv (s : State) : Prop where
  /-- Memory is in canonical form, inside 0x000..0xFFF. -/
  memCanonical : s.mem.wf = true
  /-- Every live stack entry is a value of `npc` pushed by a 2NNN, in 0x002..0x1000. -/
  liveEntries : ∀ k : Fin 16, k.val < s.sp.val →
    2 ≤ (s.stack.get k).toNat ∧ (s.stack.get k).toNat ≤ 0x1000
  /-- PC is at most 0x10FE, the most BNNN reaches (R27). -/
  pcRange : s.pc.toNat ≤ 0x10FE
  /-- WAIT = 1 and HALTED = 1 never hold together. -/
  notBoth : ¬ (s.wait = true ∧ s.halted = true)
  /-- With no fault since Reset the latch is zero. -/
  latchClear : s.halted = false → s.fcause = 0 ∧ s.fpc = 0 ∧ s.fop = 0
  /-- With a fault the cause is one of the four codes. -/
  latchCode : s.halted = true → 1 ≤ s.fcause.toNat ∧ s.fcause.toNat ≤ 4

/-- The next step is a Step that fetches and executes the instruction at PC: nothing pending, neither
halted nor waiting, both bytes in memory (R90, R217). -/
def State.fetches (s : State) : Bool :=
  s.pending.isEmpty && !s.halted && !s.wait && s.fetchable

/-- Faulted: never a successful end of a run (R263 a). -/
def State.faulted (s : State) : Bool := s.halted

/-- Parked: the next instruction is a jump to itself (R263 b). -/
def State.parked (s : State) : Bool :=
  !s.wait && !s.halted && s.fetchable && (s.fetchWord == (0x1000 ||| s.pc))

/-- Address `a` is one of the `n` bytes from `base`. -/
def inRange (base n a : Nat) : Prop := base ≤ a ∧ a < base + n

/-- `s[p]` of R173: some sprite bit equal to 1 of the `n`-row sprite at `base` maps to column `x`, row `y`
when drawn from (vx, vy). -/
def spriteCovers (m : Memory) (base : Nat) (vx vy : Byte) (n : Nat) (y : Fin 32) (x : Fin 64) : Prop :=
  ∃ r c : Nat, r < n ∧ c < 8 ∧ (m.read (base + r)).getLsbD (7 - c) = true ∧
    x.val = (vx.toNat + c) % 64 ∧ y.val = (vy.toNat + r) % 32

/-- The registers an instruction may write: the last column of the table of 10_state.md R22 (FX0A writes
VX only at the KeyDown event that ends the wait). -/
def writesReg (i : Instr) (r : Reg) : Prop :=
  match i with
  | .cls => False
  | .ret => False
  | .jp _ => False
  | .call _ => False
  | .seImm _ _ => False
  | .sneImm _ _ => False
  | .seReg _ _ => False
  | .ldImm x _ => r = x
  | .addImm x _ => r = x
  | .ldReg x _ => r = x
  | .orReg x _ => r = x
  | .andReg x _ => r = x
  | .xorReg x _ => r = x
  | .addReg x _ => r = x ∨ r = 15
  | .subReg x _ => r = x ∨ r = 15
  | .shr x _ => r = x ∨ r = 15
  | .subnReg x _ => r = x ∨ r = 15
  | .shl x _ => r = x ∨ r = 15
  | .sneReg _ _ => False
  | .ldI _ => False
  | .jpV0 _ => False
  | .rnd x _ => r = x
  | .drw _ _ _ => r = 15
  | .skp _ => False
  | .sknp _ => False
  | .ldVxDt x => r = x
  | .ldVxK _ => False
  | .ldDtVx _ => False
  | .ldStVx _ => False
  | .addI _ => r = 15
  | .ldF _ => False
  | .ldB _ => False
  | .stRegs _ => False
  | .ldRegs x => r ≤ x
  | .undef _ => False

end Sys2Proof.Machine
end

