-- ==== Sys2Proof/Certificates/Slice0/Obligations.lean ====
section
/-! DEFINITION. The statements about the machine, from the numbered rules of spec/. A frame clause
`{ t with f := s.f } = s` says that `t` with field `f` put back is `s`: every other field, memory, stack
and special registers among them, is unchanged. PC is the advanced one, `npc`, when `exec` begins, so
the instruction's own address is `s.pc - 2` (00_scope.md R13). -/

open Sys2Proof Sys2Proof.Machine

/-! ### Encoding -/

/-- The fields of an opcode as numbers of its 16 bits (30_encoding.md R92; the bit numbers are marked
there as the spec's own reading of the patterns). -/
def Obligations.FieldsOfAnOpcode : Prop :=
  ∀ w : Word,
    (w.extractLsb' 12 4).toNat = w.toNat / 4096 ∧
    (fieldX w).val = w.toNat / 256 % 16 ∧
    (fieldY w).val = w.toNat / 16 % 16 ∧
    (fieldN w).val = w.toNat % 16 ∧
    (fieldNN w).toNat = w.toNat % 256 ∧
    (fieldNNN w).toNat = w.toNat % 4096

/-- R95: decode is total; the 34 (mask, match) pairs are disjoint, the matching row decides, and a word
that matches none is the undefined word. -/
def Obligations.DecodeSelectsTheOneMatchingRow : Prop :=
  opcodeMap.length = 34 ∧
  opcodeMap.Pairwise (fun r r' => ∀ w : Word, ¬ (r.matches w = true ∧ r'.matches w = true)) ∧
  (∀ (w : Word) (r : OpcodeRow), r ∈ opcodeMap → r.matches w = true → decode w = r.build w) ∧
  (∀ w : Word, (∀ r ∈ opcodeMap, r.matches w = false) → decode w = .undef w)

/-- R96: the opcode map, row by row, with the fields of R92. -/
def Obligations.OpcodeMapRowByRow : Prop :=
  ∀ w : Word,
    (w &&& 0xFFFF = 0x00E0 → decode w = .cls) ∧
    (w &&& 0xFFFF = 0x00EE → decode w = .ret) ∧
    (w &&& 0xF000 = 0x1000 → decode w = .jp (fieldNNN w)) ∧
    (w &&& 0xF000 = 0x2000 → decode w = .call (fieldNNN w)) ∧
    (w &&& 0xF000 = 0x3000 → decode w = .seImm (fieldX w) (fieldNN w)) ∧
    (w &&& 0xF000 = 0x4000 → decode w = .sneImm (fieldX w) (fieldNN w)) ∧
    (w &&& 0xF00F = 0x5000 → decode w = .seReg (fieldX w) (fieldY w)) ∧
    (w &&& 0xF000 = 0x6000 → decode w = .ldImm (fieldX w) (fieldNN w)) ∧
    (w &&& 0xF000 = 0x7000 → decode w = .addImm (fieldX w) (fieldNN w)) ∧
    (w &&& 0xF00F = 0x8000 → decode w = .ldReg (fieldX w) (fieldY w)) ∧
    (w &&& 0xF00F = 0x8001 → decode w = .orReg (fieldX w) (fieldY w)) ∧
    (w &&& 0xF00F = 0x8002 → decode w = .andReg (fieldX w) (fieldY w)) ∧
    (w &&& 0xF00F = 0x8003 → decode w = .xorReg (fieldX w) (fieldY w)) ∧
    (w &&& 0xF00F = 0x8004 → decode w = .addReg (fieldX w) (fieldY w)) ∧
    (w &&& 0xF00F = 0x8005 → decode w = .subReg (fieldX w) (fieldY w)) ∧
    (w &&& 0xF00F = 0x8006 → decode w = .shr (fieldX w) (fieldY w)) ∧
    (w &&& 0xF00F = 0x8007 → decode w = .subnReg (fieldX w) (fieldY w)) ∧
    (w &&& 0xF00F = 0x800E → decode w = .shl (fieldX w) (fieldY w)) ∧
    (w &&& 0xF00F = 0x9000 → decode w = .sneReg (fieldX w) (fieldY w)) ∧
    (w &&& 0xF000 = 0xA000 → decode w = .ldI (fieldNNN w)) ∧
    (w &&& 0xF000 = 0xB000 → decode w = .jpV0 (fieldNNN w)) ∧
    (w &&& 0xF000 = 0xC000 → decode w = .rnd (fieldX w) (fieldNN w)) ∧
    (w &&& 0xF000 = 0xD000 → decode w = .drw (fieldX w) (fieldY w) (fieldN w)) ∧
    (w &&& 0xF0FF = 0xE09E → decode w = .skp (fieldX w)) ∧
    (w &&& 0xF0FF = 0xE0A1 → decode w = .sknp (fieldX w)) ∧
    (w &&& 0xF0FF = 0xF007 → decode w = .ldVxDt (fieldX w)) ∧
    (w &&& 0xF0FF = 0xF00A → decode w = .ldVxK (fieldX w)) ∧
    (w &&& 0xF0FF = 0xF015 → decode w = .ldDtVx (fieldX w)) ∧
    (w &&& 0xF0FF = 0xF018 → decode w = .ldStVx (fieldX w)) ∧
    (w &&& 0xF0FF = 0xF01E → decode w = .addI (fieldX w)) ∧
    (w &&& 0xF0FF = 0xF029 → decode w = .ldF (fieldX w)) ∧
    (w &&& 0xF0FF = 0xF033 → decode w = .ldB (fieldX w)) ∧
    (w &&& 0xF0FF = 0xF055 → decode w = .stRegs (fieldX w)) ∧
    (w &&& 0xF0FF = 0xF065 → decode w = .ldRegs (fieldX w))

/-- The words of the table of 30_encoding.md R99, and no others, are UNDEF (the spec's decision D11), and
UNDEF executes as a no-operation, PC staying `npc`. -/
def Obligations.UndefinedWordsAreNoOperations : Prop :=
  (∀ w : Word, isUndefWord w = true ↔ decode w = .undef w) ∧
  (∀ (w : Word) (s : State), exec (.undef w) s = .next s)

/-- Decoding the word of any well-formed instruction gives it back. -/
def Obligations.DecodeOfEncode : Prop := ∀ i : Instr, i.wf = true → decode (encode i) = i

/-- Every word decodes to a well-formed instruction, whose word it is. -/
def Obligations.EncodeOfDecode : Prop := ∀ w : Word, (decode w).wf = true ∧ encode (decode w) = w

/-- The two bytes of a well-formed instruction, high byte first, decode to it and leave the rest
(30_encoding.md R91, 20_memory.md R69); fewer than two bytes are rejected by name (the model's own). -/
def Obligations.BytesDecodeBigEndian : Prop :=
  (∀ (i : Instr) (rest : List Byte), i.wf = true →
    (encodeBytes i).length = 2 ∧ decodeBytes (encodeBytes i ++ rest) = .ok (i, rest)) ∧
  (∀ bs : List Byte, bs.length < 2 → decodeBytes bs = .error .truncated)

/-- A word of each of the sixteen families (00_scope.md R17), written out from the patterns of
30_encoding.md R96 (95_test_vectors.md). -/
def Obligations.WordsOfEachFamilyDecode : Prop :=
  decode 0x00E0 = .cls ∧ decode 0x00EE = .ret ∧ decode 0x1200 = .jp 0x200 ∧ decode 0x2210 = .call 0x210 ∧
  decode 0x3A05 = .seImm 10 0x05 ∧ decode 0x4A05 = .sneImm 10 0x05 ∧ decode 0x5120 = .seReg 1 2 ∧
  decode 0x60EA = .ldImm 0 0xEA ∧ decode 0x7A02 = .addImm 10 0x02 ∧ decode 0x8126 = .shr 1 2 ∧
  decode 0x8008 = .undef 0x8008 ∧ decode 0x9120 = .sneReg 1 2 ∧ decode 0xA050 = .ldI 0x050 ∧
  decode 0xB210 = .jpV0 0x210 ∧ decode 0xC10F = .rnd 1 0x0F ∧ decode 0xD015 = .drw 0 1 5 ∧
  decode 0xE1A1 = .sknp 1 ∧ decode 0xF50A = .ldVxK 5 ∧ decode 0xF255 = .stRegs 2

/-! ### Memory -/

/-- Two memories in canonical form that read the same at every address are the same. -/
def Obligations.CanonicalMemoriesAreEqualWhenReadsAre : Prop :=
  ∀ m m' : Memory, m.wf = true → m'.wf = true → (∀ a, a < 4096 → m.read a = m'.read a) → m = m'

/-- Bytes that FX55 stores are what a fetch at their address reads next, big-endian (20_memory.md R69,
R76; R76 is the spec's decision D16). -/
def Obligations.StoredBytesAreFetched : Prop :=
  ∀ (x k k' : Reg) (s t : State), k'.val = k.val + 1 → k'.val ≤ x.val → s.idx.toNat + x.val ≤ 0xFFF →
    exec (.stRegs x) s = .next t →
    t.mem.readWord (s.idx.toNat + k.val) = s.getV k ++ s.getV k'

/-! ### Step and the host's events -/

/-- With no event pending, neither halted nor waiting, a step fetches two bytes big-endian, advances PC by
2 and executes the decoded instruction (30_encoding.md R90); above 0xFFE it raises FetchBounds, PC
unchanged (the spec's decisions D1 to D3). -/
def Obligations.StepRunsDecodedInstruction : Prop :=
  ∀ s : State, s.pending = [] → s.halted = false → s.wait = false →
    (s.pc.toNat ≤ 0xFFE →
      step s = exec (decode (s.mem.read s.pc.toNat ++ s.mem.read (s.pc.toNat + 1)))
        { s with pc := s.pc + 2 }) ∧
    (0xFFE < s.pc.toNat →
      step s = .next { s with halted := true, fcause := 3, fpc := s.pc, fop := 0 })

/-- A pending Step event is taken off the schedule and is then the Step of a state with no event pending,
whatever events follow it (the schedule is the model's own, log entry 4). -/
def Obligations.StepEventIsAStep : Prop :=
  ∀ (s : State) (es : List HostEvent) (t : State), s.pending = .step :: es →
    step { s with pending := [] } = .next t → step s = .next { t with pending := es }

/-- Every step answers a next state, but for a Reset with an over-long ROM, which is refused (the model's
choice, log entries 8 and 10). -/
def Obligations.EveryStepAnswers : Prop :=
  ∀ s : State, (∃ t, step s = .next t) ∨
    (∃ font rom q es, s.pending = .reset font rom q :: es ∧ 3584 < rom.length ∧
      step s = .refused .romTooLong)

/-- The result of a Step (00_scope.md R15), read off the state after it (the model's choice, log entry 7).
-/
def Obligations.StepResults : Prop :=
  ∀ s : State, s.pending = [] → ∃ t, step s = .next t ∧
    (s.halted = true → t = s ∧ t.stepResult = .fault s.fcause) ∧
    (s.halted = false → s.wait = true → t = s ∧ t.stepResult = .waiting) ∧
    (s.halted = false → s.wait = false → t.halted = true → t.stepResult = .fault t.fcause) ∧
    (s.halted = false → s.wait = false → t.halted = false →
      (∃ x, decode s.fetchWord = .ldVxK x) → t.stepResult = .waiting) ∧
    (s.halted = false → s.wait = false → t.halted = false →
      (∀ x, decode s.fetchWord ≠ .ldVxK x) → t.stepResult = .done)

/-- A Tick (60_exceptions.md R218) counts both timers down, each stopping at 0, and changes nothing else;
the event is taken off the schedule (the model's choice, log entry 4). -/
def Obligations.TickCountsDown : Prop :=
  ∀ (s : State) (es : List HostEvent), s.pending = .tick :: es → ∃ t, step s = .next t ∧
    t.dt.toNat = s.dt.toNat - 1 ∧ t.st.toNat = s.st.toNat - 1 ∧
    { t with dt := s.dt, st := s.st, pending := s.pending } = s ∧ t.pending = es

/-- After n Ticks a timer set to N reads N − n, and 0 from the N-th on (45_keypad_timer.md R186's
property). -/
def Obligations.TimersRunOutAfterNTicks : Prop :=
  ∀ (n : Nat) (s : State) (es : List HostEvent), s.pending = List.replicate n .tick ++ es →
    ∃ t, Sys2Proof.core.run n s = .next t ∧
      t.dt.toNat = s.dt.toNat - n ∧ t.st.toNat = s.st.toNat - n ∧
      { t with dt := s.dt, st := s.st, pending := s.pending } = s ∧ t.pending = es

/-- KeyDown (60_exceptions.md R219, 45_keypad_timer.md R185 c to e; the spec's decision D10) sets its key
and, while waiting, writes the key's value to V[WAITX] and ends the wait; KeyUp clears its key; nothing else
changes, and the event is taken off the schedule (the model's choice, log entry 4). -/
def Obligations.KeyEvents : Prop :=
  ∀ (s : State) (k : Key) (es : List HostEvent),
    (s.pending = .keyDown k :: es → ∃ t, step s = .next t ∧
      (∀ c, t.getKey c = if c = k then true else s.getKey c) ∧ t.pending = es ∧
      (s.wait = false → { t with keys := s.keys, pending := s.pending } = s) ∧
      (s.wait = true → t.wait = false ∧ (t.getV s.waitX).toNat = k.val ∧
        (∀ r, r ≠ s.waitX → t.getV r = s.getV r) ∧
        { t with keys := s.keys, pending := s.pending, v := s.v, wait := s.wait } = s)) ∧
    (s.pending = .keyUp k :: es → ∃ t, step s = .next t ∧
      (∀ c, t.getKey c = if c = k then false else s.getKey c) ∧ t.pending = es ∧
      { t with keys := s.keys, pending := s.pending } = s)

/-- The waiting machine, clauses (a) to (i) of 45_keypad_timer.md R185 (the spec's decision D10). -/
def Obligations.WaitingMachine : Prop :=
  ∀ s : State,
    -- (a)
    (s.halted = false → s.wait = true → s.pending = [] →
      step s = .next s ∧ s.stepResult = .waiting) ∧
    (∀ es, s.halted = false → s.wait = true → s.pending = .step :: es →
      step s = .next { s with pending := es }) ∧
    -- (b)
    (∀ es, s.wait = true → s.pending = .tick :: es → ∃ t, step s = .next t ∧ t.wait = true ∧
      t.waitX = s.waitX ∧ t.dt.toNat = s.dt.toNat - 1 ∧ t.st.toNat = s.st.toNat - 1 ∧
      { t with dt := s.dt, st := s.st, pending := s.pending } = s) ∧
    -- (c), (f), (g): the first KeyDown ends the wait, whatever KEYS held; a later one sets its key only
    (∀ k k' es, s.wait = true → s.pending = .keyDown k :: .keyDown k' :: es →
      ∃ t u, step s = .next t ∧ t.wait = false ∧ t.waitX = s.waitX ∧ (t.getV s.waitX).toNat = k.val ∧
        (∀ c, t.getKey c = if c = k then true else s.getKey c) ∧
        (∀ r, r ≠ s.waitX → t.getV r = s.getV r) ∧
        { t with keys := s.keys, pending := s.pending, v := s.v, wait := s.wait } = s ∧
        step t = .next u ∧ (∀ c, u.getKey c = if c = k' then true else t.getKey c) ∧
        { u with keys := t.keys, pending := t.pending } = t) ∧
    -- (d)
    (∀ k es, s.wait = false → s.pending = .keyDown k :: es → ∃ t, step s = .next t ∧
      (∀ c, t.getKey c = if c = k then true else s.getKey c) ∧
      { t with keys := s.keys, pending := s.pending } = s) ∧
    -- (e)
    (∀ k es, s.pending = .keyUp k :: es → ∃ t, step s = .next t ∧
      (∀ c, t.getKey c = if c = k then false else s.getKey c) ∧
      { t with keys := s.keys, pending := s.pending } = s) ∧
    -- (h)
    (∀ font rom q es, s.pending = .reset font rom q :: es → rom.length ≤ 3584 →
      ∃ t, step s = .next t ∧ t.wait = false) ∧
    -- (i)
    (∀ es, s.pending = .presentAck :: es → step s = .next { s with dirty := false, pending := es })

/-- The halted machine (60_exceptions.md R207), of a state that is not waiting. A Step changes nothing and
gives Fault(FCAUSE) again; Ticks count; key events update KEYS only; PresentAck clears DIRTY; Reset clears
the latch. -/
def Obligations.HaltedMachine : Prop :=
  ∀ s : State, s.halted = true → s.wait = false →
    s.stepResult = .fault s.fcause ∧
    (s.pending = [] → step s = .next s) ∧
    (∀ es, s.pending = .step :: es → step s = .next { s with pending := es }) ∧
    (∀ es, s.pending = .tick :: es → ∃ t, step s = .next t ∧
      t.dt.toNat = s.dt.toNat - 1 ∧ t.st.toNat = s.st.toNat - 1 ∧
      { t with dt := s.dt, st := s.st, pending := s.pending } = s) ∧
    (∀ k es, s.pending = .keyDown k :: es → ∃ t, step s = .next t ∧
      (∀ c, t.getKey c = if c = k then true else s.getKey c) ∧
      { t with keys := s.keys, pending := s.pending } = s) ∧
    (∀ k es, s.pending = .keyUp k :: es → ∃ t, step s = .next t ∧
      (∀ c, t.getKey c = if c = k then false else s.getKey c) ∧
      { t with keys := s.keys, pending := s.pending } = s) ∧
    (∀ es, s.pending = .presentAck :: es → step s = .next { s with dirty := false, pending := es }) ∧
    (∀ font rom q es, s.pending = .reset font rom q :: es → rom.length ≤ 3584 →
      ∃ t, step s = .next t ∧ t.halted = false ∧ t.fcause = 0 ∧ t.fpc = 0 ∧ t.fop = 0)

/-- Once halted, nothing but DT, ST, KEYS and DIRTY changes until Reset (10_state.md R46, marked there as
derived; 60_exceptions.md R209: the latch describes the first and only fault). -/
def Obligations.HaltedStateIsFrozenUntilReset : Prop :=
  ∀ s t : State, s.Inv → s.halted = true →
    (∀ font rom q es, s.pending ≠ .reset font rom q :: es) → step s = .next t →
    { t with dt := s.dt, st := s.st, keys := s.keys, dirty := s.dirty, pending := s.pending } = s

/-- The state after the Reset event (70_reset_and_hazards.md R240; its zero fill is the spec's decision
D13), KEYS and the model's own fields untouched (the model's choice, log entry 17). -/
def Obligations.ResetEventLoadsTheResetState : Prop :=
  ∀ (s : State) (font : Font) (rom : List Byte) (q : Quirks) (es : List HostEvent),
    s.pending = .reset font rom q :: es → rom.length ≤ 3584 → ∃ t, step s = .next t ∧
      (∀ k : Fin 80, t.mem.read (0x050 + k.val) = font.get k) ∧
      (∀ (k : Nat) (h : k < rom.length), t.mem.read (0x200 + k) = rom[k]) ∧
      (∀ a, ¬ inRange 0x050 80 a → ¬ inRange 0x200 rom.length a → t.mem.read a = 0) ∧
      (∀ r, t.getV r = 0) ∧ t.idx = 0 ∧ t.pc = 0x200 ∧ t.sp.val = 0 ∧ (∀ k, t.stack.get k = 0) ∧
      t.dt = 0 ∧ t.st = 0 ∧ (∀ y x, pixel t.fb y x = false) ∧ t.dirty = false ∧
      t.wait = false ∧ t.waitX = 0 ∧ t.halted = false ∧ t.fcause = 0 ∧ t.fpc = 0 ∧ t.fop = 0 ∧
      t.q = q ∧ t.keys = s.keys ∧ t.frameEvents = s.frameEvents ∧ t.pending = es ∧
      t.randIn = s.randIn ∧ t.draws = s.draws

/-- A ROM of more than 3584 bytes is refused and no run exists (70_reset_and_hazards.md R243, the spec's
decision D27); as a refusal of the step it is the model's choice, log entry 10. -/
def Obligations.OverlongRomIsRefused : Prop :=
  ∀ (s : State) (font : Font) (rom : List Byte) (q : Quirks) (es : List HostEvent),
    s.pending = .reset font rom q :: es →
      (3584 < rom.length ↔ step s = .refused .romTooLong)

/-- The reset state (10_state.md R45; its zero fill is the spec's decision D13), with the model's choices of
log entries 1, 2, 3, 12 for FONT, Q (the defaults of 00_scope.md R7, D12), ROM and KEYS. -/
def Obligations.ResetStateValues : Prop :=
  (∀ r, State.reset.getV r = 0) ∧ State.reset.idx = 0 ∧ State.reset.pc = 0x200 ∧
  State.reset.sp.val = 0 ∧ (∀ k, State.reset.stack.get k = 0) ∧ State.reset.dt = 0 ∧
  State.reset.st = 0 ∧ (∀ y x, pixel State.reset.fb y x = false) ∧ State.reset.dirty = false ∧
  State.reset.wait = false ∧ State.reset.waitX = 0 ∧ State.reset.halted = false ∧
  State.reset.fcause = 0 ∧ State.reset.fpc = 0 ∧ State.reset.fop = 0 ∧
  (∀ k : Fin 80, State.reset.mem.read (0x050 + k.val) = Config.defaultFont.get k) ∧
  (∀ a, ¬ inRange 0x050 80 a → State.reset.mem.read a = 0) ∧ (∀ k, State.reset.getKey k = false) ∧
  State.reset.q = { rs := true, ls := true, jo := true, si := false, li := false }

/-- The reset state meets the invariant. -/
def Obligations.ResetSatisfiesInvariant : Prop := State.reset.Inv

/-- Every step keeps the invariant of R46, from every state that meets it. -/
def Obligations.StepKeepsInvariant : Prop := ∀ s t : State, s.Inv → step s = .next t → t.Inv

/-- Faults are precise (60_exceptions.md R201, R206, R210; the spec's decisions D1 to D3): when a Step
latches a fault, it is FetchBounds with PC unchanged, or one of the three faults of execution with PC
advanced, the latch holds the instruction's own address and opcode, and nothing else has changed; the
causes are the four of R201. -/
def Obligations.FaultsArePreciseAndOnlyTheFour : Prop :=
  ∀ s t : State, s.pending = [] → s.halted = false → step s = .next t → t.halted = true →
    t.stepResult = .fault t.fcause ∧
    ((0xFFE < s.pc.toNat ∧ t = { s with halted := true, fcause := 3, fpc := s.pc, fop := 0 }) ∨
     (s.pc.toNat ≤ 0xFFE ∧
      t = { s with pc := s.pc + 2, halted := true, fcause := t.fcause, fpc := s.pc, fop := s.fetchWord } ∧
      ((t.fcause = 1 ∧ s.sp.val = 16 ∧ ∃ nnn, decode s.fetchWord = .call nnn) ∨
       (t.fcause = 2 ∧ s.sp.val = 0 ∧ decode s.fetchWord = .ret) ∨
       (t.fcause = 4 ∧
        ((∃ x y n, decode s.fetchWord = .drw x y n ∧ 1 ≤ n.val ∧ 0xFFF < s.idx.toNat + n.val - 1) ∨
         (∃ x, decode s.fetchWord = .ldB x ∧ 0xFFF < s.idx.toNat + 2) ∨
         (∃ x, decode s.fetchWord = .stRegs x ∧ 0xFFF < s.idx.toNat + x.val) ∨
         (∃ x, decode s.fetchWord = .ldRegs x ∧ 0xFFF < s.idx.toNat + x.val))))))

/-- A parked machine stays parked: a Step leaves all of it unchanged, a Tick, a key event and a
PresentAck leave it parked (70_reset_and_hazards.md R263 b, the spec's decision D24). -/
def Obligations.ParkedMachineStaysParked : Prop :=
  ∀ s : State, s.parked = true →
    (s.pending = [] → step s = .next s) ∧
    (∀ e es, s.pending = e :: es → (∀ font rom q, e ≠ .reset font rom q) →
      ∃ t, step s = .next t ∧ t.parked = true)

/-- A word placed by `withFetchWord` is the instruction the very next step runs (the model's own, log
entry 14). -/
def Obligations.PlacedWordRunsNext : Prop :=
  ∀ (s : State) (w : Word), (s.withFetchWord 16 w.toNat).fetches = true ∧
    step (s.withFetchWord 16 w.toNat) =
      exec (decode w) ((s.withFetchWord 16 w.toNat).setPc ((s.withFetchWord 16 w.toNat).pc + 2))

/-! ### Flow -/

/-- 00EE (40_flow.md R120); what the fault latches is the spec's decisions D2 and D3. -/
def Obligations.ReturnPopsOrUnderflows : Prop :=
  ∀ s : State, decode 0x00EE = .ret ∧
    (∀ k : Fin 16, s.sp.val = k.val + 1 → ∃ t, exec .ret s = .next t ∧
      t.pc = s.stack.get k ∧ t.sp.val = k.val ∧
      { t with pc := s.pc, sp := s.sp } = s ∧ ∀ a, t.mem.read a = s.mem.read a) ∧
    (s.sp.val = 0 → exec .ret s =
      .next { s with halted := true, fcause := 2, fpc := s.pc - 2, fop := 0x00EE })

/-- R121: 1NNN. -/
def Obligations.JumpLoadsPC : Prop :=
  ∀ (nnn : BitVec 12) (s : State), decode (wordNNN 0x1 nnn) = .jp nnn ∧
    ∃ t, exec (.jp nnn) s = .next t ∧ t.pc.toNat = nnn.toNat ∧ { t with pc := s.pc } = s ∧
      ∀ a, t.mem.read a = s.mem.read a

/-- 2NNN (40_flow.md R122); what the fault latches is the spec's decisions D2 and D3. -/
def Obligations.CallPushesOrOverflows : Prop :=
  ∀ (nnn : BitVec 12) (s : State), decode (wordNNN 0x2 nnn) = .call nnn ∧
    (∀ k : Fin 16, s.sp.val = k.val → ∃ t, exec (.call nnn) s = .next t ∧
      t.stack.get k = s.pc ∧ (∀ j, j ≠ k → t.stack.get j = s.stack.get j) ∧
      t.sp.val = k.val + 1 ∧ t.pc.toNat = nnn.toNat ∧
      { t with pc := s.pc, sp := s.sp, stack := s.stack } = s ∧ ∀ a, t.mem.read a = s.mem.read a) ∧
    (s.sp.val = 16 → exec (.call nnn) s =
      .next { s with halted := true, fcause := 1, fpc := s.pc - 2, fop := wordNNN 0x2 nnn })

/-- R123: BNNN in both quirk settings; the sum is not reduced. -/
def Obligations.JumpWithOffset : Prop :=
  ∀ (nnn : BitVec 12) (s : State), decode (wordNNN 0xB nnn) = .jpV0 nnn ∧
    ∃ t, exec (.jpV0 nnn) s = .next t ∧
      (s.q.jo = true → t.pc.toNat = nnn.toNat + (s.getV 0).toNat) ∧
      (s.q.jo = false → ∀ x : Reg, x.val = nnn.toNat / 256 → t.pc.toNat = nnn.toNat + (s.getV x).toNat) ∧
      { t with pc := s.pc } = s ∧ ∀ a, t.mem.read a = s.mem.read a

/-! ### Skips -/

/-- R131 to R134 with R130: the conditional skips add 2 to the advanced PC and change nothing else. -/
def Obligations.ConditionalSkips : Prop :=
  ∀ (x y : Reg) (nn : Byte) (s : State),
    (decode (wordXNN 0x3 x nn) = .seImm x nn ∧ ∃ t, exec (.seImm x nn) s = .next t ∧
      t.pc = (if s.getV x = nn then s.pc + 2 else s.pc) ∧ { t with pc := s.pc } = s ∧
      ∀ a, t.mem.read a = s.mem.read a) ∧
    (decode (wordXNN 0x4 x nn) = .sneImm x nn ∧ ∃ t, exec (.sneImm x nn) s = .next t ∧
      t.pc = (if s.getV x ≠ nn then s.pc + 2 else s.pc) ∧ { t with pc := s.pc } = s ∧
      ∀ a, t.mem.read a = s.mem.read a) ∧
    (decode (wordXYN 0x5 x y 0x0) = .seReg x y ∧ ∃ t, exec (.seReg x y) s = .next t ∧
      t.pc = (if s.getV x = s.getV y then s.pc + 2 else s.pc) ∧ { t with pc := s.pc } = s ∧
      ∀ a, t.mem.read a = s.mem.read a) ∧
    (decode (wordXYN 0x9 x y 0x0) = .sneReg x y ∧ ∃ t, exec (.sneReg x y) s = .next t ∧
      t.pc = (if s.getV x ≠ s.getV y then s.pc + 2 else s.pc) ∧ { t with pc := s.pc } = s ∧
      ∀ a, t.mem.read a = s.mem.read a)

/-! ### Registers -/

/-- 6XNN and 7XNN (42_alu.md R141, R142); that 7XNN writes no flag is the spec's decision D28. -/
def Obligations.LoadAndAddImmediate : Prop :=
  ∀ (x : Reg) (nn : Byte) (s : State),
    (decode (wordXNN 0x6 x nn) = .ldImm x nn ∧ ∃ t, exec (.ldImm x nn) s = .next t ∧
      t.getV x = nn ∧ (∀ r, r ≠ x → t.getV r = s.getV r) ∧ { t with v := s.v } = s ∧
      ∀ a, t.mem.read a = s.mem.read a) ∧
    (decode (wordXNN 0x7 x nn) = .addImm x nn ∧ ∃ t, exec (.addImm x nn) s = .next t ∧
      (t.getV x).toNat = ((s.getV x).toNat + nn.toNat) % 256 ∧
      (∀ r, r ≠ x → t.getV r = s.getV r) ∧ { t with v := s.v } = s ∧
      ∀ a, t.mem.read a = s.mem.read a)

/-- 8XY0 to 8XY3 (42_alu.md R143 to R146): copy, OR, AND, XOR; that they write no flag is the spec's
decision D28. -/
def Obligations.CopyAndLogic : Prop :=
  ∀ (x y : Reg) (s : State),
    (decode (wordXYN 0x8 x y 0x0) = .ldReg x y ∧ ∃ t, exec (.ldReg x y) s = .next t ∧
      t.getV x = s.getV y ∧ (∀ r, r ≠ x → t.getV r = s.getV r) ∧ { t with v := s.v } = s ∧
      ∀ a, t.mem.read a = s.mem.read a) ∧
    (decode (wordXYN 0x8 x y 0x1) = .orReg x y ∧ ∃ t, exec (.orReg x y) s = .next t ∧
      t.getV x = s.getV x ||| s.getV y ∧ (∀ r, r ≠ x → t.getV r = s.getV r) ∧ { t with v := s.v } = s ∧
      ∀ a, t.mem.read a = s.mem.read a) ∧
    (decode (wordXYN 0x8 x y 0x2) = .andReg x y ∧ ∃ t, exec (.andReg x y) s = .next t ∧
      t.getV x = s.getV x &&& s.getV y ∧ (∀ r, r ≠ x → t.getV r = s.getV r) ∧ { t with v := s.v } = s ∧
      ∀ a, t.mem.read a = s.mem.read a) ∧
    (decode (wordXYN 0x8 x y 0x3) = .xorReg x y ∧ ∃ t, exec (.xorReg x y) s = .next t ∧
      t.getV x = s.getV x ^^^ s.getV y ∧ (∀ r, r ≠ x → t.getV r = s.getV r) ∧ { t with v := s.v } = s ∧
      ∀ a, t.mem.read a = s.mem.read a)

/-- 8XY4 (42_alu.md R147); the carry is written last, so it stands when X = F, and the operands are those
before any write (the spec's decision D4). -/
def Obligations.AddWithCarry : Prop :=
  ∀ (x y : Reg) (s : State), decode (wordXYN 0x8 x y 0x4) = .addReg x y ∧
    ∃ t, exec (.addReg x y) s = .next t ∧
      t.getV 15 = (if (s.getV x).toNat + (s.getV y).toNat > 255 then 1 else 0) ∧
      (x ≠ 15 → (t.getV x).toNat = ((s.getV x).toNat + (s.getV y).toNat) % 256) ∧
      (∀ r, r ≠ x → r ≠ 15 → t.getV r = s.getV r) ∧ { t with v := s.v } = s ∧
      ∀ a, t.mem.read a = s.mem.read a

/-- 8XY5 and 8XY7 (42_alu.md R148, R150; at equality the spec's decision D23); the flag is the strict
comparison, the difference is written last, so it stands when X = F, and the operands are those before any
write (D4). -/
def Obligations.SubtractWithFlag : Prop :=
  ∀ (x y : Reg) (s : State),
    (decode (wordXYN 0x8 x y 0x5) = .subReg x y ∧ ∃ t, exec (.subReg x y) s = .next t ∧
      (t.getV x).toNat = ((s.getV x).toNat + 256 - (s.getV y).toNat) % 256 ∧
      (x ≠ 15 → t.getV 15 = if (s.getV x).toNat > (s.getV y).toNat then 1 else 0) ∧
      (∀ r, r ≠ x → r ≠ 15 → t.getV r = s.getV r) ∧ { t with v := s.v } = s ∧
      ∀ a, t.mem.read a = s.mem.read a) ∧
    (decode (wordXYN 0x8 x y 0x7) = .subnReg x y ∧ ∃ t, exec (.subnReg x y) s = .next t ∧
      (t.getV x).toNat = ((s.getV y).toNat + 256 - (s.getV x).toNat) % 256 ∧
      (x ≠ 15 → t.getV 15 = if (s.getV x).toNat < (s.getV y).toNat then 1 else 0) ∧
      (∀ r, r ≠ x → r ≠ 15 → t.getV r = s.getV r) ∧ { t with v := s.v } = s ∧
      ∀ a, t.mem.read a = s.mem.read a)

/-- 8XY6 and 8XYE (42_alu.md R149, R151) in both quirk settings; the bit shifted out is written last, and
the operands are those before any write (the spec's decision D4). -/
def Obligations.ShiftsByOne : Prop :=
  ∀ (x y : Reg) (s : State),
    (decode (wordXYN 0x8 x y 0x6) = .shr x y ∧ ∃ t, exec (.shr x y) s = .next t ∧
      (∀ src : Byte, src = (if s.q.rs = true then s.getV y else s.getV x) →
        (t.getV 15).toNat = src.toNat % 2 ∧ (x ≠ 15 → (t.getV x).toNat = src.toNat / 2)) ∧
      (∀ r, r ≠ x → r ≠ 15 → t.getV r = s.getV r) ∧ { t with v := s.v } = s ∧
      ∀ a, t.mem.read a = s.mem.read a) ∧
    (decode (wordXYN 0x8 x y 0xE) = .shl x y ∧ ∃ t, exec (.shl x y) s = .next t ∧
      (∀ src : Byte, src = (if s.q.ls = true then s.getV y else s.getV x) →
        (t.getV 15).toNat = src.toNat / 128 ∧ (x ≠ 15 → (t.getV x).toNat = src.toNat * 2 % 256)) ∧
      (∀ r, r ≠ x → r ≠ 15 → t.getV r = s.getV r) ∧ { t with v := s.v } = s ∧
      ∀ a, t.mem.read a = s.mem.read a)

/-- CXNN (42_alu.md R153; the spec's decision D21). The draw is the byte the host supplied, or a free
value when it supplied none (the model's choice, log entry 5); either way each is used once, and bits
where NN has a 0 are 0. -/
def Obligations.RandomIsTheDrawMasked : Prop :=
  ∀ (x : Reg) (nn : Byte) (s : State), decode (wordXNN 0xC x nn) = .rnd x nn ∧
    ∃ (rand : Byte) (t : State), exec (.rnd x nn) s = .next t ∧ t.getV x = rand &&& nn ∧
      (∀ r rest, s.randIn = r :: rest → rand = r ∧ t.randIn = rest ∧ t.draws = s.draws) ∧
      (s.randIn = [] → rand = Config.freeRand s.draws ∧ t.randIn = [] ∧ t.draws = s.draws + 1) ∧
      t.getV x &&& ~~~nn = 0 ∧ (∀ r, r ≠ x → t.getV r = s.getV r) ∧
      { t with v := s.v, randIn := s.randIn, draws := s.draws } = s ∧
      ∀ a, t.mem.read a = s.mem.read a

/-! ### Index register and memory -/

/-- R160, R162: ANNN and FX29. -/
def Obligations.LoadIndex : Prop :=
  (∀ (nnn : BitVec 12) (s : State), decode (wordNNN 0xA nnn) = .ldI nnn ∧
    ∃ t, exec (.ldI nnn) s = .next t ∧ t.idx.toNat = nnn.toNat ∧ { t with idx := s.idx } = s ∧
      ∀ a, t.mem.read a = s.mem.read a) ∧
  (∀ (x : Reg) (s : State), decode (wordXNN 0xF x 0x29) = .ldF x ∧
    ∃ t, exec (.ldF x) s = .next t ∧ t.idx.toNat = 0x050 + (s.getV x).toNat % 16 * 5 ∧
      { t with idx := s.idx } = s ∧ ∀ a, t.mem.read a = s.mem.read a)

/-- FX1E (43_index_memory.md R161); the flag is taken from the true sum (the spec's decision D6), VX from
before any write (D4). -/
def Obligations.AddToIndex : Prop :=
  ∀ (x : Reg) (s : State), decode (wordXNN 0xF x 0x1E) = .addI x ∧
    ∃ t, exec (.addI x) s = .next t ∧
      t.idx.toNat = (s.idx.toNat + (s.getV x).toNat) % 65536 ∧
      t.getV 15 = (if s.idx.toNat + (s.getV x).toNat > 0xFFF then 1 else 0) ∧
      (∀ r, r ≠ 15 → t.getV r = s.getV r) ∧ { t with v := s.v, idx := s.idx } = s ∧
      ∀ a, t.mem.read a = s.mem.read a

/-- FX33 (43_index_memory.md R163) stores the three digits at I, I + 1, I + 2, or raises DataBounds and
stores nothing (the spec's decisions D1 to D3). -/
def Obligations.StoreDecimalDigits : Prop :=
  ∀ (x : Reg) (s : State), decode (wordXNN 0xF x 0x33) = .ldB x ∧
    (s.dataAddr 2 ≤ 0xFFF → ∃ t, exec (.ldB x) s = .next t ∧
      (t.mem.read (s.dataAddr 0)).toNat = (s.getV x).toNat / 100 ∧
      (t.mem.read (s.dataAddr 1)).toNat = (s.getV x).toNat / 10 % 10 ∧
      (t.mem.read (s.dataAddr 2)).toNat = (s.getV x).toNat % 10 ∧
      (∀ a, ¬ inRange (s.dataAddr 0) 3 a → t.mem.read a = s.mem.read a) ∧
      { t with mem := s.mem } = s) ∧
    (0xFFF < s.dataAddr 2 → exec (.ldB x) s =
      .next { s with halted := true, fcause := 4, fpc := s.pc - 2, fop := wordXNN 0xF x 0x33 })

/-- FX55 (43_index_memory.md R164) stores V0 to VX from I on; I gains X with the quirk (the spec's decision
D32); out of bounds nothing is stored (D1 to D3). -/
def Obligations.StoreRegisters : Prop :=
  ∀ (x : Reg) (s : State), decode (wordXNN 0xF x 0x55) = .stRegs x ∧
    (s.dataAddr x.val ≤ 0xFFF → ∃ t, exec (.stRegs x) s = .next t ∧
      (∀ k : Reg, k ≤ x → t.mem.read (s.dataAddr k.val) = s.getV k) ∧
      (∀ a, ¬ inRange (s.dataAddr 0) (x.val + 1) a → t.mem.read a = s.mem.read a) ∧
      t.idx.toNat = (if s.q.si = true then s.idx.toNat + x.val else s.idx.toNat) ∧
      { t with mem := s.mem, idx := s.idx } = s) ∧
    (0xFFF < s.dataAddr x.val → exec (.stRegs x) s =
      .next { s with halted := true, fcause := 4, fpc := s.pc - 2, fop := wordXNN 0xF x 0x55 })

/-- FX65 (43_index_memory.md R165) loads V0 to VX from I on; I gains X with the quirk (the spec's decision
D32); out of bounds nothing is loaded (D1 to D3). -/
def Obligations.LoadRegisters : Prop :=
  ∀ (x : Reg) (s : State), decode (wordXNN 0xF x 0x65) = .ldRegs x ∧
    (s.dataAddr x.val ≤ 0xFFF → ∃ t, exec (.ldRegs x) s = .next t ∧
      (∀ k : Reg, k ≤ x → t.getV k = s.mem.read (s.dataAddr k.val)) ∧
      (∀ k : Reg, x < k → t.getV k = s.getV k) ∧
      t.idx.toNat = (if s.q.li = true then s.idx.toNat + x.val else s.idx.toNat) ∧
      { t with v := s.v, idx := s.idx } = s ∧ ∀ a, t.mem.read a = s.mem.read a) ∧
    (0xFFF < s.dataAddr x.val → exec (.ldRegs x) s =
      .next { s with halted := true, fcause := 4, fpc := s.pc - 2, fop := wordXNN 0xF x 0x65 })

/-! ### Display -/

/-- 00E0 (44_display.md R171): the display blank, DIRTY clear, one frame_event (the spec's decision D8;
counted, log entry 6). -/
def Obligations.ClearDisplay : Prop :=
  ∀ s : State, decode 0x00E0 = .cls ∧ ∃ t, exec .cls s = .next t ∧
    (∀ y x, pixel t.fb y x = false) ∧ t.dirty = false ∧ t.frameEvents = s.frameEvents + 1 ∧
    { t with fb := s.fb, dirty := s.dirty, frameEvents := s.frameEvents } = s ∧
    ∀ a, t.mem.read a = s.mem.read a

/-- DXYN (44_display.md R172, law R173 a; the spec's decisions D1 to D4, D7, D8, D31) turns over exactly the
pixels the sprite covers, drawn from the old VF where X or Y is F; VF is 1 exactly when one of them was on,
DIRTY is set and one frame_event emitted (counted, log entry 6); out of bounds nothing happens but the
fault. -/
def Obligations.DrawIsXorWithCollision : Prop :=
  ∀ (x y : Reg) (n : Fin 16) (s : State), decode (wordXYN 0xD x y (digitOfReg n)) = .drw x y n ∧
    (n.val = 0 ∨ s.dataAddr (n.val - 1) ≤ 0xFFF → ∃ t, exec (.drw x y n) s = .next t ∧
      (∀ py px, spriteCovers s.mem (s.dataAddr 0) (s.getV x) (s.getV y) n.val py px →
        pixel t.fb py px = !pixel s.fb py px) ∧
      (∀ py px, ¬ spriteCovers s.mem (s.dataAddr 0) (s.getV x) (s.getV y) n.val py px →
        pixel t.fb py px = pixel s.fb py px) ∧
      ((∃ py px, pixel s.fb py px = true ∧
        spriteCovers s.mem (s.dataAddr 0) (s.getV x) (s.getV y) n.val py px) → t.getV 15 = 1) ∧
      ((∀ py px, pixel s.fb py px = true →
        ¬ spriteCovers s.mem (s.dataAddr 0) (s.getV x) (s.getV y) n.val py px) → t.getV 15 = 0) ∧
      (∀ r, r ≠ 15 → t.getV r = s.getV r) ∧ t.dirty = true ∧ t.frameEvents = s.frameEvents + 1 ∧
      { t with v := s.v, fb := s.fb, dirty := s.dirty, frameEvents := s.frameEvents } = s ∧
      ∀ a, t.mem.read a = s.mem.read a) ∧
    (1 ≤ n.val → 0xFFF < s.dataAddr (n.val - 1) → exec (.drw x y n) s =
      .next { s with halted := true, fcause := 4, fpc := s.pc - 2, fop := wordXYN 0xD x y (digitOfReg n) })

/-- Law (b) of 44_display.md R173, marked there as derived: the same sprite drawn twice at the same place
restores the display; if every pixel it sets was off and it has a pixel, the first draw gives VF = 0 and
the second VF = 1. -/
def Obligations.DrawingTwiceRestores : Prop :=
  ∀ (x y x' y' : Reg) (n : Fin 16) (s t s' t' : State),
    (n.val = 0 ∨ s.dataAddr (n.val - 1) ≤ 0xFFF) → (n.val = 0 ∨ s'.dataAddr (n.val - 1) ≤ 0xFFF) →
    exec (.drw x y n) s = .next t → s'.fb = t.fb →
    (s'.getV x').toNat % 64 = (s.getV x).toNat % 64 → (s'.getV y').toNat % 32 = (s.getV y).toNat % 32 →
    (∀ r, r < n.val → s'.mem.read (s'.dataAddr r) = s.mem.read (s.dataAddr r)) →
    exec (.drw x' y' n) s' = .next t' →
    t'.fb = s.fb ∧
    ((∀ py px, spriteCovers s.mem (s.dataAddr 0) (s.getV x) (s.getV y) n.val py px →
        pixel s.fb py px = false) →
      (∃ py px, spriteCovers s.mem (s.dataAddr 0) (s.getV x) (s.getV y) n.val py px) →
      t.getV 15 = 0 ∧ t'.getV 15 = 1)

/-- 00E0 followed by a DXYN that raises no fault gives VF = 0 (44_display.md R173 d, marked as derived). -/
def Obligations.DrawAfterClearHasNoCollision : Prop :=
  ∀ (x y : Reg) (n : Fin 16) (s t s' t' : State), exec .cls s = .next t → s'.fb = t.fb →
    s'.halted = false → exec (.drw x y n) s' = .next t' → t'.halted = false → t'.getV 15 = 0

/-! ### Keypad and timers -/

/-- EX9E and EXA1 (45_keypad_timer.md R181, R182); a value above 0xF names no key and is not held (the
spec's decision D9). -/
def Obligations.KeySkips : Prop :=
  ∀ (x : Reg) (s : State),
    (decode (wordXNN 0xE x 0x9E) = .skp x ∧ ∃ t, exec (.skp x) s = .next t ∧
      (∀ k : Key, (s.getV x).toNat = k.val → t.pc = if s.getKey k = true then s.pc + 2 else s.pc) ∧
      (0x0F < (s.getV x).toNat → t.pc = s.pc) ∧ { t with pc := s.pc } = s ∧
      ∀ a, t.mem.read a = s.mem.read a) ∧
    (decode (wordXNN 0xE x 0xA1) = .sknp x ∧ ∃ t, exec (.sknp x) s = .next t ∧
      (∀ k : Key, (s.getV x).toNat = k.val → t.pc = if s.getKey k = true then s.pc else s.pc + 2) ∧
      (0x0F < (s.getV x).toNat → t.pc = s.pc + 2) ∧ { t with pc := s.pc } = s ∧
      ∀ a, t.mem.read a = s.mem.read a)

/-- R183, R186, R187: FX07, FX15, FX18, with the sound output. -/
def Obligations.TimerInstructions : Prop :=
  ∀ (x : Reg) (s : State),
    (decode (wordXNN 0xF x 0x07) = .ldVxDt x ∧ ∃ t, exec (.ldVxDt x) s = .next t ∧ t.getV x = s.dt ∧
      (∀ r, r ≠ x → t.getV r = s.getV r) ∧ { t with v := s.v } = s ∧
      ∀ a, t.mem.read a = s.mem.read a) ∧
    (decode (wordXNN 0xF x 0x15) = .ldDtVx x ∧ ∃ t, exec (.ldDtVx x) s = .next t ∧ t.dt = s.getV x ∧
      { t with dt := s.dt } = s ∧ ∀ a, t.mem.read a = s.mem.read a) ∧
    (decode (wordXNN 0xF x 0x18) = .ldStVx x ∧ ∃ t, exec (.ldStVx x) s = .next t ∧ t.st = s.getV x ∧
      (t.soundOn = true ↔ s.getV x ≠ 0) ∧ { t with st := s.st } = s ∧
      ∀ a, t.mem.read a = s.mem.read a)

/-- FX0A (45_keypad_timer.md R184; the spec's decision D10) enters the wait, VX not yet written and PC on
the next instruction; Steps then change nothing, and the KeyDown that comes writes its key to VX and ends
the wait. -/
def Obligations.KeyWait : Prop :=
  ∀ (x : Reg) (s : State), decode (wordXNN 0xF x 0x0A) = .ldVxK x ∧
    ∃ t, exec (.ldVxK x) s = .next t ∧ t.wait = true ∧ t.waitX = x ∧
      { t with wait := s.wait, waitX := s.waitX } = s ∧ (∀ a, t.mem.read a = s.mem.read a) ∧
      (s.halted = false → t.stepResult = .waiting) ∧
      (s.halted = false → s.pending = [] → step t = .next t) ∧
      (∀ k es, s.pending = .keyDown k :: es → ∃ u, step t = .next u ∧ u.wait = false ∧
        (u.getV x).toNat = k.val ∧ u.pc = s.pc)

/-! ### Whole-machine rules -/

/-- A register changes only if the last column of the table of 10_state.md R22 names it. -/
def Obligations.RegistersWrittenAsTabled : Prop :=
  ∀ (i : Instr) (r : Reg) (s t : State), exec i s = .next t → t.getV r ≠ s.getV r → writesReg i r

/-- PC after an instruction is `npc` but for the transfers of 10_state.md R25; a skip adds 2. -/
def Obligations.PCChangesOnlyByTransfers : Prop :=
  ∀ (i : Instr) (s t : State), exec i s = .next t → t.pc ≠ s.pc →
    i = .ret ∨ (∃ nnn, i = .jp nnn ∨ i = .call nnn ∨ i = .jpV0 nnn) ∨
    (t.pc = s.pc + 2 ∧ ((∃ x nn, i = .seImm x nn ∨ i = .sneImm x nn) ∨
      (∃ x y, i = .seReg x y ∨ i = .sneReg x y) ∨ (∃ x, i = .skp x ∨ i = .sknp x)))

/-- I is written by ANNN, FX1E, FX29, and by FX55 and FX65 when their quirk is enabled (10_state.md R29). -/
def Obligations.IndexWrittenOnlyByItsInstructions : Prop :=
  ∀ (i : Instr) (s t : State), exec i s = .next t → t.idx ≠ s.idx →
    (∃ nnn, i = .ldI nnn) ∨ (∃ x, i = .addI x) ∨ (∃ x, i = .ldF x) ∨
    (s.q.si = true ∧ ∃ x, i = .stRegs x) ∨ (s.q.li = true ∧ ∃ x, i = .ldRegs x)

/-- 10_state.md R31: only 2NNN pushes and only 00EE pops; neither fault changes SP or an entry; a pop
leaves the entries. -/
def Obligations.OnlyCallPushesOnlyReturnPops : Prop :=
  ∀ (i : Instr) (s t : State), exec i s = .next t →
    (t.sp ≠ s.sp ∨ t.stack ≠ s.stack →
      ((∃ nnn, i = .call nnn) ∧ t.sp.val = s.sp.val + 1 ∧
        ∀ k : Fin 16, k.val ≠ s.sp.val → t.stack.get k = s.stack.get k) ∨
      (i = .ret ∧ t.sp.val + 1 = s.sp.val ∧ t.stack = s.stack)) ∧
    (s.halted = false → t.halted = true → t.sp = s.sp ∧ t.stack = s.stack)

/-- R188: no instruction other than FX15 writes DT and none other than FX18 writes ST; no other Step writes
either, so no Step counts a timer down; a Tick changes nothing but DT and ST. -/
def Obligations.TimersWrittenOnlyByTheirInstructions : Prop :=
  (∀ (i : Instr) (s t : State), exec i s = .next t →
    (t.dt ≠ s.dt → ∃ x, i = .ldDtVx x ∧ t.dt = s.getV x) ∧
    (t.st ≠ s.st → ∃ x, i = .ldStVx x ∧ t.st = s.getV x)) ∧
  (∀ s t : State, s.pending = [] → step s = .next t →
    (t.dt ≠ s.dt → ∃ x, decode s.fetchWord = .ldDtVx x ∧ t.dt = s.getV x) ∧
    (t.st ≠ s.st → ∃ x, decode s.fetchWord = .ldStVx x ∧ t.st = s.getV x)) ∧
  (∀ (s t : State) (es : List HostEvent), s.pending = .tick :: es → step s = .next t →
    { t with dt := s.dt, st := s.st, pending := s.pending } = s)

/-- Only 00E0 and DXYN write the display, its flag and the frame output, only FX33 and FX55 write
memory, only FX0A enters a wait, and no instruction writes the quirks, the keys or the schedule
(10_state.md R36, R39; 20_memory.md R72; 45_keypad_timer.md R180). -/
def Obligations.DisplayMemoryAndWaitWriters : Prop :=
  ∀ (i : Instr) (s t : State), exec i s = .next t →
    (t.fb ≠ s.fb ∨ t.dirty ≠ s.dirty ∨ t.frameEvents ≠ s.frameEvents →
      i = .cls ∨ ∃ x y n, i = .drw x y n) ∧
    (t.mem ≠ s.mem → ∃ x, i = .ldB x ∨ i = .stRegs x) ∧
    (t.wait ≠ s.wait ∨ t.waitX ≠ s.waitX → ∃ x, i = .ldVxK x) ∧
    t.q = s.q ∧ t.keys = s.keys ∧ t.pending = s.pending

/-- A quirk flag is read by its own instruction and by no other (10_state.md R36). -/
def Obligations.QuirkFlagsAreIndependent : Prop :=
  ∀ (i : Instr) (s t : State) (q : Quirks),
    ((∃ x y, i = .shr x y) → q.rs = s.q.rs) → ((∃ x y, i = .shl x y) → q.ls = s.q.ls) →
    ((∃ nnn, i = .jpV0 nnn) → q.jo = s.q.jo) → ((∃ x, i = .stRegs x) → q.si = s.q.si) →
    ((∃ x, i = .ldRegs x) → q.li = s.q.li) →
    exec i s = .next t → exec i { s with q := q } = .next { t with q := q }

/-- No instruction reads DIRTY or ST (10_state.md R32, R40): what they hold is seen only by the host. -/
def Obligations.DirtyAndSoundTimerAreNeverRead : Prop :=
  ∀ (i : Instr) (s t : State) (d : Bool) (b : Byte), exec i s = .next t →
    ∃ t', exec i { s with dirty := d, st := b } = .next t' ∧
      { t' with dirty := t.dirty, st := t.st } = t
end

