-- ==== Sys2Proof/Laws/Decode.lean ====
section
/-! SUPPORT. The fields and the fixed digits of the three word forms (30_encoding.md R92, R93), and the
masks of the opcode map as digits (R96). -/

namespace Sys2Proof

@[simp] theorem regOfDigit_digitOfReg (x : Reg) : regOfDigit (digitOfReg x) = x := rfl

@[simp] theorem digitOfReg_regOfDigit (d : BitVec 4) : digitOfReg (regOfDigit d) = d := rfl

/-! ### Digits of the word forms -/

@[simp] theorem wordXNN_family (f : BitVec 4) (x : Reg) (nn : Byte) :
    (wordXNN f x nn).extractLsb' 12 4 = f := by
  refine BitVec.eq_of_getLsbD_eq fun i hi => ?_
  simp only [wordXNN, BitVec.getLsbD_extractLsb', BitVec.getLsbD_append]
  interval_cases i <;> simp

@[simp] theorem wordXNN_x (f : BitVec 4) (x : Reg) (nn : Byte) :
    (wordXNN f x nn).extractLsb' 8 4 = digitOfReg x := by
  refine BitVec.eq_of_getLsbD_eq fun i hi => ?_
  simp only [wordXNN, BitVec.getLsbD_extractLsb', BitVec.getLsbD_append]
  interval_cases i <;> simp

@[simp] theorem wordXNN_nn (f : BitVec 4) (x : Reg) (nn : Byte) :
    (wordXNN f x nn).extractLsb' 0 8 = nn := by
  refine BitVec.eq_of_getLsbD_eq fun i hi => ?_
  simp only [wordXNN, BitVec.getLsbD_extractLsb', BitVec.getLsbD_append]
  interval_cases i <;> simp

@[simp] theorem wordXYN_family (f : BitVec 4) (x y : Reg) (n : BitVec 4) :
    (wordXYN f x y n).extractLsb' 12 4 = f := by
  refine BitVec.eq_of_getLsbD_eq fun i hi => ?_
  simp only [wordXYN, BitVec.getLsbD_extractLsb', BitVec.getLsbD_append]
  interval_cases i <;> simp

@[simp] theorem wordXYN_x (f : BitVec 4) (x y : Reg) (n : BitVec 4) :
    (wordXYN f x y n).extractLsb' 8 4 = digitOfReg x := by
  refine BitVec.eq_of_getLsbD_eq fun i hi => ?_
  simp only [wordXYN, BitVec.getLsbD_extractLsb', BitVec.getLsbD_append]
  interval_cases i <;> simp

@[simp] theorem wordXYN_y (f : BitVec 4) (x y : Reg) (n : BitVec 4) :
    (wordXYN f x y n).extractLsb' 4 4 = digitOfReg y := by
  refine BitVec.eq_of_getLsbD_eq fun i hi => ?_
  simp only [wordXYN, BitVec.getLsbD_extractLsb', BitVec.getLsbD_append]
  interval_cases i <;> simp

@[simp] theorem wordXYN_n (f : BitVec 4) (x y : Reg) (n : BitVec 4) :
    (wordXYN f x y n).extractLsb' 0 4 = n := by
  refine BitVec.eq_of_getLsbD_eq fun i hi => ?_
  simp only [wordXYN, BitVec.getLsbD_extractLsb', BitVec.getLsbD_append]
  interval_cases i <;> simp

@[simp] theorem wordNNN_family (f : BitVec 4) (a : BitVec 12) :
    (wordNNN f a).extractLsb' 12 4 = f := by
  refine BitVec.eq_of_getLsbD_eq fun i hi => ?_
  simp only [wordNNN, BitVec.getLsbD_extractLsb', BitVec.getLsbD_append]
  interval_cases i <;> simp

@[simp] theorem wordNNN_nnn (f : BitVec 4) (a : BitVec 12) :
    (wordNNN f a).extractLsb' 0 12 = a := by
  refine BitVec.eq_of_getLsbD_eq fun i hi => ?_
  simp only [wordNNN, BitVec.getLsbD_extractLsb', BitVec.getLsbD_append]
  interval_cases i <;> simp

/-! ### Masks as digits -/

theorem and_family (w : Word) : w &&& 0xF000#16 = w.extractLsb' 12 4 ++ 0#12 := by
  refine BitVec.eq_of_getLsbD_eq fun i hi => ?_
  simp only [BitVec.getLsbD_and, BitVec.getLsbD_extractLsb', BitVec.getLsbD_append]
  interval_cases i <;> simp

theorem and_family_last (w : Word) :
    w &&& 0xF00F#16 = w.extractLsb' 12 4 ++ (0#8 ++ w.extractLsb' 0 4) := by
  refine BitVec.eq_of_getLsbD_eq fun i hi => ?_
  simp only [BitVec.getLsbD_and, BitVec.getLsbD_extractLsb', BitVec.getLsbD_append]
  interval_cases i <;> simp

theorem and_family_byte (w : Word) :
    w &&& 0xF0FF#16 = w.extractLsb' 12 4 ++ (0#4 ++ w.extractLsb' 0 8) := by
  refine BitVec.eq_of_getLsbD_eq fun i hi => ?_
  simp only [BitVec.getLsbD_and, BitVec.getLsbD_extractLsb', BitVec.getLsbD_append]
  interval_cases i <;> simp

theorem and_all (w : Word) : w &&& 0xFFFF#16 = w := by
  simpa using BitVec.and_allOnes (x := w)

/-- A word is its family digit, its middle digits and its last digit. -/
theorem word_of_digits (w : Word) :
    w.extractLsb' 12 4 ++ (w.extractLsb' 8 4 ++ (w.extractLsb' 4 4 ++ w.extractLsb' 0 4)) = w := by
  refine BitVec.eq_of_getLsbD_eq fun i hi => ?_
  simp only [BitVec.getLsbD_extractLsb', BitVec.getLsbD_append]
  interval_cases i <;> simp

/-- A word is its family digit, X and its second byte. -/
theorem word_of_byte (w : Word) :
    w.extractLsb' 12 4 ++ (w.extractLsb' 8 4 ++ w.extractLsb' 0 8) = w := by
  refine BitVec.eq_of_getLsbD_eq fun i hi => ?_
  simp only [BitVec.getLsbD_extractLsb', BitVec.getLsbD_append]
  interval_cases i <;> simp

/-- A word is its family digit and its address. -/
theorem word_of_address (w : Word) : w.extractLsb' 12 4 ++ w.extractLsb' 0 12 = w := by
  refine BitVec.eq_of_getLsbD_eq fun i hi => ?_
  simp only [BitVec.getLsbD_extractLsb', BitVec.getLsbD_append]
  interval_cases i <;> simp

/-- The two bytes of a word, high byte first, are the word (R69). -/
theorem hiByte_append_loByte (w : Word) : hiByte w ++ loByte w = w := by
  refine BitVec.eq_of_getLsbD_eq fun i hi => ?_
  simp only [hiByte, loByte, BitVec.getLsbD_extractLsb', BitVec.getLsbD_append]
  interval_cases i <;> simp

end Sys2Proof
end

