-- ==== Sys2Proof/Laws/Memory.lean ====
section
/-! SUPPORT. The laws of main memory: what a read gives after a write, and that every operation keeps
the canonical form. -/

namespace Sys2Proof.Machine

/-! ### Reads after writes -/

@[simp] theorem Memory.read_nil (a : Nat) : Memory.read [] a = Memory.unlisted a := rfl

theorem Memory.read_without (m : Memory) (a a' : Nat) :
    (m.without a).read a' = if a' = a then Memory.unlisted a else m.read a' := by
  induction m with
  | nil => split <;> simp_all [Memory.without]
  | cons e m ih =>
    obtain ⟨k, c⟩ := e
    simp only [Memory.without, List.filter_cons] at ih ⊢
    by_cases hk : k = a
    · subst hk
      simp only [bne_self_eq_false, Bool.false_eq_true, if_false, ih, Memory.read]
      by_cases h : a' = k
      · simp [h]
      · simp [h, Ne.symm h]
    · simp only [bne_iff_ne, ne_eq, hk, not_false_eq_true, if_true, Memory.read, ih]
      by_cases h : k = a'
      · subst h; simp [hk]
      · simp [h]

theorem Memory.read_place (m : Memory) (a a' : Nat) (b : Byte) (ha : ∀ e ∈ m, e.1 ≠ a) :
    (m.place a b).read a' = if a' = a then b else m.read a' := by
  induction m with
  | nil =>
    simp only [Memory.place, Memory.read]
    by_cases h : a = a'
    · simp [h]
    · simp [h, Ne.symm h]
  | cons e m ih =>
    obtain ⟨k, c⟩ := e
    have hk : k ≠ a := ha (k, c) (by simp)
    have ih' := ih (fun e he => ha e (by simp [he]))
    simp only [Memory.place]
    by_cases hlt : a < k
    · simp only [hlt, if_true, Memory.read]
      by_cases h : a = a'
      · simp [h]
      · simp [h, Ne.symm h]
    · simp only [hlt, if_false, Memory.read, ih']
      by_cases h : k = a'
      · subst h; simp [hk]
      · simp [h]

theorem Memory.without_no_entry (m : Memory) (a : Nat) : ∀ e ∈ m.without a, e.1 ≠ a := by
  intro e he
  simpa using (List.mem_filter.mp he).2

/-- A read after a write: the byte written at that address, the old byte at every other. -/
@[simp] theorem Memory.read_write (m : Memory) (a a' : Nat) (b : Byte) :
    (m.write a b).read a' = if a' = a then b else m.read a' := by
  unfold Memory.write
  split
  · rename_i h
    rw [Memory.read_without, h]
  · rw [Memory.read_place _ _ _ _ (Memory.without_no_entry m a), Memory.read_without]
    split <;> rfl

/-- A read outside the bytes stored gives what it gave before. -/
theorem Memory.read_writeBytes_outside (bs : List Byte) (m : Memory) (base a : Nat)
    (h : ¬ (base ≤ a ∧ a < base + bs.length)) : (m.writeBytes base bs).read a = m.read a := by
  induction bs generalizing m base with
  | nil => rfl
  | cons b bs ih =>
    simp only [List.length_cons] at h
    rw [Memory.writeBytes, ih _ _ (by omega), Memory.read_write, if_neg (by omega)]

/-- A read of a byte stored gives that byte. -/
theorem Memory.read_writeBytes_inside (bs : List Byte) (m : Memory) (base k : Nat) (h : k < bs.length) :
    (m.writeBytes base bs).read (base + k) = bs[k] := by
  induction bs generalizing m base k with
  | nil => simp at h
  | cons b bs ih =>
    rw [Memory.writeBytes]
    cases k with
    | zero => rw [Memory.read_writeBytes_outside _ _ _ _ (by omega)]; simp
    | succ k =>
      have := ih (m.write base b) (base + 1) k (by simpa using h)
      rw [show base + (k + 1) = base + 1 + k by omega, this]
      rfl

/-! ### The canonical form -/

theorem Memory.wfFrom_cons (lo k : Nat) (c : Byte) (m : Memory) :
    Memory.wfFrom lo ((k, c) :: m) = true ↔
      lo ≤ k ∧ k < Config.memSize ∧ c ≠ Memory.unlisted k ∧ Memory.wfFrom (k + 1) m = true := by
  simp [Memory.wfFrom, and_assoc]

theorem Memory.wfFrom_mono (m : Memory) {lo lo' : Nat} (hle : lo' ≤ lo) (h : m.wfFrom lo = true) :
    m.wfFrom lo' = true := by
  cases m with
  | nil => rfl
  | cons e m =>
    obtain ⟨k, c⟩ := e
    rw [Memory.wfFrom_cons] at h ⊢
    exact ⟨hle.trans h.1, h.2⟩

theorem Memory.wfFrom_without (m : Memory) (lo a : Nat) (h : m.wfFrom lo = true) :
    (m.without a).wfFrom lo = true := by
  induction m generalizing lo with
  | nil => rfl
  | cons e m ih =>
    obtain ⟨k, c⟩ := e
    rw [Memory.wfFrom_cons] at h
    have ih' := ih (k + 1) h.2.2.2
    simp only [Memory.without, List.filter_cons] at ih' ⊢
    split
    · exact (Memory.wfFrom_cons _ _ _ _).mpr ⟨h.1, h.2.1, h.2.2.1, ih'⟩
    · exact Memory.wfFrom_mono _ (by omega) ih'

theorem Memory.wfFrom_place (m : Memory) (lo a : Nat) (b : Byte) (h : m.wfFrom lo = true) (hlo : lo ≤ a)
    (ha : a < Config.memSize) (hb : b ≠ Memory.unlisted a) (hm : ∀ e ∈ m, e.1 ≠ a) :
    (m.place a b).wfFrom lo = true := by
  induction m generalizing lo with
  | nil => exact (Memory.wfFrom_cons _ _ _ _).mpr ⟨hlo, ha, hb, rfl⟩
  | cons e m ih =>
    obtain ⟨k, c⟩ := e
    have hk : k ≠ a := hm (k, c) (by simp)
    rw [Memory.wfFrom_cons] at h
    simp only [Memory.place]
    split
    · rename_i hlt
      exact (Memory.wfFrom_cons _ _ _ _).mpr
        ⟨hlo, ha, hb, (Memory.wfFrom_cons _ _ _ _).mpr ⟨by omega, h.2⟩⟩
    · exact (Memory.wfFrom_cons _ _ _ _).mpr
        ⟨h.1, h.2.1, h.2.2.1, ih (k + 1) h.2.2.2 (by omega) (fun e he => hm e (by simp [he]))⟩

/-- A write inside memory keeps the canonical form. -/
theorem Memory.write_wf (m : Memory) (a : Nat) (b : Byte) (h : m.wf = true) (ha : a < Config.memSize) :
    (m.write a b).wf = true := by
  unfold Memory.write
  split
  · exact Memory.wfFrom_without m 0 a h
  · rename_i hb
    exact Memory.wfFrom_place _ 0 a b (Memory.wfFrom_without m 0 a h) (Nat.zero_le a) ha hb
      (Memory.without_no_entry m a)

/-- Stores inside memory keep the canonical form. -/
theorem Memory.writeBytes_wf (bs : List Byte) (m : Memory) (base : Nat) (h : m.wf = true)
    (ha : base + bs.length ≤ Config.memSize) : (m.writeBytes base bs).wf = true := by
  induction bs generalizing m base with
  | nil => exact h
  | cons b bs ih =>
    simp only [List.length_cons] at ha
    exact ih _ _ (Memory.write_wf m base b h (by omega)) (by omega)

/-- Memory after Reset is in canonical form when the ROM is not over-long. -/
theorem resetMemory_wf (font : Font) (rom : List Byte) (h : rom.length ≤ Config.romMax) :
    (resetMemory font rom).wf = true := by
  refine Memory.writeBytes_wf rom _ _ (Memory.writeBytes_wf _ _ _ rfl ?_) ?_
  · simp [Config.fontBase, Config.memSize]
  · simp only [Config.romMax, Config.progBase, Config.memSize] at h ⊢; omega

/-- Memory of the reset state is in canonical form. -/
theorem reset_mem_wf : State.reset.mem.wf = true := rfl

end Sys2Proof.Machine
end

