-- ==== Sys2Proof/Laws/State.lean ====
section
/-! SUPPORT. For each named update of the state, one lemma per field, true by rfl and used by simp, so that
no later proof unfolds a record update; and the same for the updates that choose between two states. -/

namespace Sys2Proof.Machine

/-! ### `State.setV` -/

@[simp] theorem State.setV_v (s : State) (x : Reg) (b : Byte) : (s.setV x b).v = s.v.set x.val b x.isLt := rfl
@[simp] theorem State.setV_idx (s : State) (x : Reg) (b : Byte) : (s.setV x b).idx = s.idx := rfl
@[simp] theorem State.setV_pc (s : State) (x : Reg) (b : Byte) : (s.setV x b).pc = s.pc := rfl
@[simp] theorem State.setV_sp (s : State) (x : Reg) (b : Byte) : (s.setV x b).sp = s.sp := rfl
@[simp] theorem State.setV_stack (s : State) (x : Reg) (b : Byte) : (s.setV x b).stack = s.stack := rfl
@[simp] theorem State.setV_dt (s : State) (x : Reg) (b : Byte) : (s.setV x b).dt = s.dt := rfl
@[simp] theorem State.setV_st (s : State) (x : Reg) (b : Byte) : (s.setV x b).st = s.st := rfl
@[simp] theorem State.setV_q (s : State) (x : Reg) (b : Byte) : (s.setV x b).q = s.q := rfl
@[simp] theorem State.setV_fb (s : State) (x : Reg) (b : Byte) : (s.setV x b).fb = s.fb := rfl
@[simp] theorem State.setV_dirty (s : State) (x : Reg) (b : Byte) : (s.setV x b).dirty = s.dirty := rfl
@[simp] theorem State.setV_wait (s : State) (x : Reg) (b : Byte) : (s.setV x b).wait = s.wait := rfl
@[simp] theorem State.setV_waitX (s : State) (x : Reg) (b : Byte) : (s.setV x b).waitX = s.waitX := rfl
@[simp] theorem State.setV_halted (s : State) (x : Reg) (b : Byte) : (s.setV x b).halted = s.halted := rfl
@[simp] theorem State.setV_fcause (s : State) (x : Reg) (b : Byte) : (s.setV x b).fcause = s.fcause := rfl
@[simp] theorem State.setV_fpc (s : State) (x : Reg) (b : Byte) : (s.setV x b).fpc = s.fpc := rfl
@[simp] theorem State.setV_fop (s : State) (x : Reg) (b : Byte) : (s.setV x b).fop = s.fop := rfl
@[simp] theorem State.setV_mem (s : State) (x : Reg) (b : Byte) : (s.setV x b).mem = s.mem := rfl
@[simp] theorem State.setV_keys (s : State) (x : Reg) (b : Byte) : (s.setV x b).keys = s.keys := rfl
@[simp] theorem State.setV_pending (s : State) (x : Reg) (b : Byte) : (s.setV x b).pending = s.pending := rfl
@[simp] theorem State.setV_randIn (s : State) (x : Reg) (b : Byte) : (s.setV x b).randIn = s.randIn := rfl
@[simp] theorem State.setV_draws (s : State) (x : Reg) (b : Byte) : (s.setV x b).draws = s.draws := rfl
@[simp] theorem State.setV_frameEvents (s : State) (x : Reg) (b : Byte) : (s.setV x b).frameEvents = s.frameEvents := rfl
@[simp] theorem State.setV_getKey (s : State) (x : Reg) (b : Byte) (c : Key) : (s.setV x b).getKey c = s.getKey c := rfl

/-! ### `State.setRegs` -/

@[simp] theorem State.setRegs_v (s : State) (r : Vector Byte 16) : (s.setRegs r).v = r := rfl
@[simp] theorem State.setRegs_idx (s : State) (r : Vector Byte 16) : (s.setRegs r).idx = s.idx := rfl
@[simp] theorem State.setRegs_pc (s : State) (r : Vector Byte 16) : (s.setRegs r).pc = s.pc := rfl
@[simp] theorem State.setRegs_sp (s : State) (r : Vector Byte 16) : (s.setRegs r).sp = s.sp := rfl
@[simp] theorem State.setRegs_stack (s : State) (r : Vector Byte 16) : (s.setRegs r).stack = s.stack := rfl
@[simp] theorem State.setRegs_dt (s : State) (r : Vector Byte 16) : (s.setRegs r).dt = s.dt := rfl
@[simp] theorem State.setRegs_st (s : State) (r : Vector Byte 16) : (s.setRegs r).st = s.st := rfl
@[simp] theorem State.setRegs_q (s : State) (r : Vector Byte 16) : (s.setRegs r).q = s.q := rfl
@[simp] theorem State.setRegs_fb (s : State) (r : Vector Byte 16) : (s.setRegs r).fb = s.fb := rfl
@[simp] theorem State.setRegs_dirty (s : State) (r : Vector Byte 16) : (s.setRegs r).dirty = s.dirty := rfl
@[simp] theorem State.setRegs_wait (s : State) (r : Vector Byte 16) : (s.setRegs r).wait = s.wait := rfl
@[simp] theorem State.setRegs_waitX (s : State) (r : Vector Byte 16) : (s.setRegs r).waitX = s.waitX := rfl
@[simp] theorem State.setRegs_halted (s : State) (r : Vector Byte 16) : (s.setRegs r).halted = s.halted := rfl
@[simp] theorem State.setRegs_fcause (s : State) (r : Vector Byte 16) : (s.setRegs r).fcause = s.fcause := rfl
@[simp] theorem State.setRegs_fpc (s : State) (r : Vector Byte 16) : (s.setRegs r).fpc = s.fpc := rfl
@[simp] theorem State.setRegs_fop (s : State) (r : Vector Byte 16) : (s.setRegs r).fop = s.fop := rfl
@[simp] theorem State.setRegs_mem (s : State) (r : Vector Byte 16) : (s.setRegs r).mem = s.mem := rfl
@[simp] theorem State.setRegs_keys (s : State) (r : Vector Byte 16) : (s.setRegs r).keys = s.keys := rfl
@[simp] theorem State.setRegs_pending (s : State) (r : Vector Byte 16) : (s.setRegs r).pending = s.pending := rfl
@[simp] theorem State.setRegs_randIn (s : State) (r : Vector Byte 16) : (s.setRegs r).randIn = s.randIn := rfl
@[simp] theorem State.setRegs_draws (s : State) (r : Vector Byte 16) : (s.setRegs r).draws = s.draws := rfl
@[simp] theorem State.setRegs_frameEvents (s : State) (r : Vector Byte 16) : (s.setRegs r).frameEvents = s.frameEvents := rfl
@[simp] theorem State.setRegs_getKey (s : State) (r : Vector Byte 16) (c : Key) : (s.setRegs r).getKey c = s.getKey c := rfl

/-! ### `State.setI` -/

@[simp] theorem State.setI_v (s : State) (w : Word) : (s.setI w).v = s.v := rfl
@[simp] theorem State.setI_idx (s : State) (w : Word) : (s.setI w).idx = w := rfl
@[simp] theorem State.setI_pc (s : State) (w : Word) : (s.setI w).pc = s.pc := rfl
@[simp] theorem State.setI_sp (s : State) (w : Word) : (s.setI w).sp = s.sp := rfl
@[simp] theorem State.setI_stack (s : State) (w : Word) : (s.setI w).stack = s.stack := rfl
@[simp] theorem State.setI_dt (s : State) (w : Word) : (s.setI w).dt = s.dt := rfl
@[simp] theorem State.setI_st (s : State) (w : Word) : (s.setI w).st = s.st := rfl
@[simp] theorem State.setI_q (s : State) (w : Word) : (s.setI w).q = s.q := rfl
@[simp] theorem State.setI_fb (s : State) (w : Word) : (s.setI w).fb = s.fb := rfl
@[simp] theorem State.setI_dirty (s : State) (w : Word) : (s.setI w).dirty = s.dirty := rfl
@[simp] theorem State.setI_wait (s : State) (w : Word) : (s.setI w).wait = s.wait := rfl
@[simp] theorem State.setI_waitX (s : State) (w : Word) : (s.setI w).waitX = s.waitX := rfl
@[simp] theorem State.setI_halted (s : State) (w : Word) : (s.setI w).halted = s.halted := rfl
@[simp] theorem State.setI_fcause (s : State) (w : Word) : (s.setI w).fcause = s.fcause := rfl
@[simp] theorem State.setI_fpc (s : State) (w : Word) : (s.setI w).fpc = s.fpc := rfl
@[simp] theorem State.setI_fop (s : State) (w : Word) : (s.setI w).fop = s.fop := rfl
@[simp] theorem State.setI_mem (s : State) (w : Word) : (s.setI w).mem = s.mem := rfl
@[simp] theorem State.setI_keys (s : State) (w : Word) : (s.setI w).keys = s.keys := rfl
@[simp] theorem State.setI_pending (s : State) (w : Word) : (s.setI w).pending = s.pending := rfl
@[simp] theorem State.setI_randIn (s : State) (w : Word) : (s.setI w).randIn = s.randIn := rfl
@[simp] theorem State.setI_draws (s : State) (w : Word) : (s.setI w).draws = s.draws := rfl
@[simp] theorem State.setI_frameEvents (s : State) (w : Word) : (s.setI w).frameEvents = s.frameEvents := rfl
@[simp] theorem State.setI_getV (s : State) (w : Word) (r : Reg) : (s.setI w).getV r = s.getV r := rfl
@[simp] theorem State.setI_getKey (s : State) (w : Word) (c : Key) : (s.setI w).getKey c = s.getKey c := rfl

/-! ### `State.setPc` -/

@[simp] theorem State.setPc_v (s : State) (w : Word) : (s.setPc w).v = s.v := rfl
@[simp] theorem State.setPc_idx (s : State) (w : Word) : (s.setPc w).idx = s.idx := rfl
@[simp] theorem State.setPc_pc (s : State) (w : Word) : (s.setPc w).pc = w := rfl
@[simp] theorem State.setPc_sp (s : State) (w : Word) : (s.setPc w).sp = s.sp := rfl
@[simp] theorem State.setPc_stack (s : State) (w : Word) : (s.setPc w).stack = s.stack := rfl
@[simp] theorem State.setPc_dt (s : State) (w : Word) : (s.setPc w).dt = s.dt := rfl
@[simp] theorem State.setPc_st (s : State) (w : Word) : (s.setPc w).st = s.st := rfl
@[simp] theorem State.setPc_q (s : State) (w : Word) : (s.setPc w).q = s.q := rfl
@[simp] theorem State.setPc_fb (s : State) (w : Word) : (s.setPc w).fb = s.fb := rfl
@[simp] theorem State.setPc_dirty (s : State) (w : Word) : (s.setPc w).dirty = s.dirty := rfl
@[simp] theorem State.setPc_wait (s : State) (w : Word) : (s.setPc w).wait = s.wait := rfl
@[simp] theorem State.setPc_waitX (s : State) (w : Word) : (s.setPc w).waitX = s.waitX := rfl
@[simp] theorem State.setPc_halted (s : State) (w : Word) : (s.setPc w).halted = s.halted := rfl
@[simp] theorem State.setPc_fcause (s : State) (w : Word) : (s.setPc w).fcause = s.fcause := rfl
@[simp] theorem State.setPc_fpc (s : State) (w : Word) : (s.setPc w).fpc = s.fpc := rfl
@[simp] theorem State.setPc_fop (s : State) (w : Word) : (s.setPc w).fop = s.fop := rfl
@[simp] theorem State.setPc_mem (s : State) (w : Word) : (s.setPc w).mem = s.mem := rfl
@[simp] theorem State.setPc_keys (s : State) (w : Word) : (s.setPc w).keys = s.keys := rfl
@[simp] theorem State.setPc_pending (s : State) (w : Word) : (s.setPc w).pending = s.pending := rfl
@[simp] theorem State.setPc_randIn (s : State) (w : Word) : (s.setPc w).randIn = s.randIn := rfl
@[simp] theorem State.setPc_draws (s : State) (w : Word) : (s.setPc w).draws = s.draws := rfl
@[simp] theorem State.setPc_frameEvents (s : State) (w : Word) : (s.setPc w).frameEvents = s.frameEvents := rfl
@[simp] theorem State.setPc_getV (s : State) (w : Word) (r : Reg) : (s.setPc w).getV r = s.getV r := rfl
@[simp] theorem State.setPc_getKey (s : State) (w : Word) (c : Key) : (s.setPc w).getKey c = s.getKey c := rfl

/-! ### `State.setDt` -/

@[simp] theorem State.setDt_v (s : State) (b : Byte) : (s.setDt b).v = s.v := rfl
@[simp] theorem State.setDt_idx (s : State) (b : Byte) : (s.setDt b).idx = s.idx := rfl
@[simp] theorem State.setDt_pc (s : State) (b : Byte) : (s.setDt b).pc = s.pc := rfl
@[simp] theorem State.setDt_sp (s : State) (b : Byte) : (s.setDt b).sp = s.sp := rfl
@[simp] theorem State.setDt_stack (s : State) (b : Byte) : (s.setDt b).stack = s.stack := rfl
@[simp] theorem State.setDt_dt (s : State) (b : Byte) : (s.setDt b).dt = b := rfl
@[simp] theorem State.setDt_st (s : State) (b : Byte) : (s.setDt b).st = s.st := rfl
@[simp] theorem State.setDt_q (s : State) (b : Byte) : (s.setDt b).q = s.q := rfl
@[simp] theorem State.setDt_fb (s : State) (b : Byte) : (s.setDt b).fb = s.fb := rfl
@[simp] theorem State.setDt_dirty (s : State) (b : Byte) : (s.setDt b).dirty = s.dirty := rfl
@[simp] theorem State.setDt_wait (s : State) (b : Byte) : (s.setDt b).wait = s.wait := rfl
@[simp] theorem State.setDt_waitX (s : State) (b : Byte) : (s.setDt b).waitX = s.waitX := rfl
@[simp] theorem State.setDt_halted (s : State) (b : Byte) : (s.setDt b).halted = s.halted := rfl
@[simp] theorem State.setDt_fcause (s : State) (b : Byte) : (s.setDt b).fcause = s.fcause := rfl
@[simp] theorem State.setDt_fpc (s : State) (b : Byte) : (s.setDt b).fpc = s.fpc := rfl
@[simp] theorem State.setDt_fop (s : State) (b : Byte) : (s.setDt b).fop = s.fop := rfl
@[simp] theorem State.setDt_mem (s : State) (b : Byte) : (s.setDt b).mem = s.mem := rfl
@[simp] theorem State.setDt_keys (s : State) (b : Byte) : (s.setDt b).keys = s.keys := rfl
@[simp] theorem State.setDt_pending (s : State) (b : Byte) : (s.setDt b).pending = s.pending := rfl
@[simp] theorem State.setDt_randIn (s : State) (b : Byte) : (s.setDt b).randIn = s.randIn := rfl
@[simp] theorem State.setDt_draws (s : State) (b : Byte) : (s.setDt b).draws = s.draws := rfl
@[simp] theorem State.setDt_frameEvents (s : State) (b : Byte) : (s.setDt b).frameEvents = s.frameEvents := rfl
@[simp] theorem State.setDt_getV (s : State) (b : Byte) (r : Reg) : (s.setDt b).getV r = s.getV r := rfl
@[simp] theorem State.setDt_getKey (s : State) (b : Byte) (c : Key) : (s.setDt b).getKey c = s.getKey c := rfl

/-! ### `State.setSt` -/

@[simp] theorem State.setSt_v (s : State) (b : Byte) : (s.setSt b).v = s.v := rfl
@[simp] theorem State.setSt_idx (s : State) (b : Byte) : (s.setSt b).idx = s.idx := rfl
@[simp] theorem State.setSt_pc (s : State) (b : Byte) : (s.setSt b).pc = s.pc := rfl
@[simp] theorem State.setSt_sp (s : State) (b : Byte) : (s.setSt b).sp = s.sp := rfl
@[simp] theorem State.setSt_stack (s : State) (b : Byte) : (s.setSt b).stack = s.stack := rfl
@[simp] theorem State.setSt_dt (s : State) (b : Byte) : (s.setSt b).dt = s.dt := rfl
@[simp] theorem State.setSt_st (s : State) (b : Byte) : (s.setSt b).st = b := rfl
@[simp] theorem State.setSt_q (s : State) (b : Byte) : (s.setSt b).q = s.q := rfl
@[simp] theorem State.setSt_fb (s : State) (b : Byte) : (s.setSt b).fb = s.fb := rfl
@[simp] theorem State.setSt_dirty (s : State) (b : Byte) : (s.setSt b).dirty = s.dirty := rfl
@[simp] theorem State.setSt_wait (s : State) (b : Byte) : (s.setSt b).wait = s.wait := rfl
@[simp] theorem State.setSt_waitX (s : State) (b : Byte) : (s.setSt b).waitX = s.waitX := rfl
@[simp] theorem State.setSt_halted (s : State) (b : Byte) : (s.setSt b).halted = s.halted := rfl
@[simp] theorem State.setSt_fcause (s : State) (b : Byte) : (s.setSt b).fcause = s.fcause := rfl
@[simp] theorem State.setSt_fpc (s : State) (b : Byte) : (s.setSt b).fpc = s.fpc := rfl
@[simp] theorem State.setSt_fop (s : State) (b : Byte) : (s.setSt b).fop = s.fop := rfl
@[simp] theorem State.setSt_mem (s : State) (b : Byte) : (s.setSt b).mem = s.mem := rfl
@[simp] theorem State.setSt_keys (s : State) (b : Byte) : (s.setSt b).keys = s.keys := rfl
@[simp] theorem State.setSt_pending (s : State) (b : Byte) : (s.setSt b).pending = s.pending := rfl
@[simp] theorem State.setSt_randIn (s : State) (b : Byte) : (s.setSt b).randIn = s.randIn := rfl
@[simp] theorem State.setSt_draws (s : State) (b : Byte) : (s.setSt b).draws = s.draws := rfl
@[simp] theorem State.setSt_frameEvents (s : State) (b : Byte) : (s.setSt b).frameEvents = s.frameEvents := rfl
@[simp] theorem State.setSt_getV (s : State) (b : Byte) (r : Reg) : (s.setSt b).getV r = s.getV r := rfl
@[simp] theorem State.setSt_getKey (s : State) (b : Byte) (c : Key) : (s.setSt b).getKey c = s.getKey c := rfl

/-! ### `State.setMem` -/

@[simp] theorem State.setMem_v (s : State) (m : Memory) : (s.setMem m).v = s.v := rfl
@[simp] theorem State.setMem_idx (s : State) (m : Memory) : (s.setMem m).idx = s.idx := rfl
@[simp] theorem State.setMem_pc (s : State) (m : Memory) : (s.setMem m).pc = s.pc := rfl
@[simp] theorem State.setMem_sp (s : State) (m : Memory) : (s.setMem m).sp = s.sp := rfl
@[simp] theorem State.setMem_stack (s : State) (m : Memory) : (s.setMem m).stack = s.stack := rfl
@[simp] theorem State.setMem_dt (s : State) (m : Memory) : (s.setMem m).dt = s.dt := rfl
@[simp] theorem State.setMem_st (s : State) (m : Memory) : (s.setMem m).st = s.st := rfl
@[simp] theorem State.setMem_q (s : State) (m : Memory) : (s.setMem m).q = s.q := rfl
@[simp] theorem State.setMem_fb (s : State) (m : Memory) : (s.setMem m).fb = s.fb := rfl
@[simp] theorem State.setMem_dirty (s : State) (m : Memory) : (s.setMem m).dirty = s.dirty := rfl
@[simp] theorem State.setMem_wait (s : State) (m : Memory) : (s.setMem m).wait = s.wait := rfl
@[simp] theorem State.setMem_waitX (s : State) (m : Memory) : (s.setMem m).waitX = s.waitX := rfl
@[simp] theorem State.setMem_halted (s : State) (m : Memory) : (s.setMem m).halted = s.halted := rfl
@[simp] theorem State.setMem_fcause (s : State) (m : Memory) : (s.setMem m).fcause = s.fcause := rfl
@[simp] theorem State.setMem_fpc (s : State) (m : Memory) : (s.setMem m).fpc = s.fpc := rfl
@[simp] theorem State.setMem_fop (s : State) (m : Memory) : (s.setMem m).fop = s.fop := rfl
@[simp] theorem State.setMem_mem (s : State) (m : Memory) : (s.setMem m).mem = m := rfl
@[simp] theorem State.setMem_keys (s : State) (m : Memory) : (s.setMem m).keys = s.keys := rfl
@[simp] theorem State.setMem_pending (s : State) (m : Memory) : (s.setMem m).pending = s.pending := rfl
@[simp] theorem State.setMem_randIn (s : State) (m : Memory) : (s.setMem m).randIn = s.randIn := rfl
@[simp] theorem State.setMem_draws (s : State) (m : Memory) : (s.setMem m).draws = s.draws := rfl
@[simp] theorem State.setMem_frameEvents (s : State) (m : Memory) : (s.setMem m).frameEvents = s.frameEvents := rfl
@[simp] theorem State.setMem_getV (s : State) (m : Memory) (r : Reg) : (s.setMem m).getV r = s.getV r := rfl
@[simp] theorem State.setMem_getKey (s : State) (m : Memory) (c : Key) : (s.setMem m).getKey c = s.getKey c := rfl

/-! ### `State.setWait` -/

@[simp] theorem State.setWait_v (s : State) (w : Bool) (x : Reg) : (s.setWait w x).v = s.v := rfl
@[simp] theorem State.setWait_idx (s : State) (w : Bool) (x : Reg) : (s.setWait w x).idx = s.idx := rfl
@[simp] theorem State.setWait_pc (s : State) (w : Bool) (x : Reg) : (s.setWait w x).pc = s.pc := rfl
@[simp] theorem State.setWait_sp (s : State) (w : Bool) (x : Reg) : (s.setWait w x).sp = s.sp := rfl
@[simp] theorem State.setWait_stack (s : State) (w : Bool) (x : Reg) : (s.setWait w x).stack = s.stack := rfl
@[simp] theorem State.setWait_dt (s : State) (w : Bool) (x : Reg) : (s.setWait w x).dt = s.dt := rfl
@[simp] theorem State.setWait_st (s : State) (w : Bool) (x : Reg) : (s.setWait w x).st = s.st := rfl
@[simp] theorem State.setWait_q (s : State) (w : Bool) (x : Reg) : (s.setWait w x).q = s.q := rfl
@[simp] theorem State.setWait_fb (s : State) (w : Bool) (x : Reg) : (s.setWait w x).fb = s.fb := rfl
@[simp] theorem State.setWait_dirty (s : State) (w : Bool) (x : Reg) : (s.setWait w x).dirty = s.dirty := rfl
@[simp] theorem State.setWait_wait (s : State) (w : Bool) (x : Reg) : (s.setWait w x).wait = w := rfl
@[simp] theorem State.setWait_waitX (s : State) (w : Bool) (x : Reg) : (s.setWait w x).waitX = x := rfl
@[simp] theorem State.setWait_halted (s : State) (w : Bool) (x : Reg) : (s.setWait w x).halted = s.halted := rfl
@[simp] theorem State.setWait_fcause (s : State) (w : Bool) (x : Reg) : (s.setWait w x).fcause = s.fcause := rfl
@[simp] theorem State.setWait_fpc (s : State) (w : Bool) (x : Reg) : (s.setWait w x).fpc = s.fpc := rfl
@[simp] theorem State.setWait_fop (s : State) (w : Bool) (x : Reg) : (s.setWait w x).fop = s.fop := rfl
@[simp] theorem State.setWait_mem (s : State) (w : Bool) (x : Reg) : (s.setWait w x).mem = s.mem := rfl
@[simp] theorem State.setWait_keys (s : State) (w : Bool) (x : Reg) : (s.setWait w x).keys = s.keys := rfl
@[simp] theorem State.setWait_pending (s : State) (w : Bool) (x : Reg) : (s.setWait w x).pending = s.pending := rfl
@[simp] theorem State.setWait_randIn (s : State) (w : Bool) (x : Reg) : (s.setWait w x).randIn = s.randIn := rfl
@[simp] theorem State.setWait_draws (s : State) (w : Bool) (x : Reg) : (s.setWait w x).draws = s.draws := rfl
@[simp] theorem State.setWait_frameEvents (s : State) (w : Bool) (x : Reg) : (s.setWait w x).frameEvents = s.frameEvents := rfl
@[simp] theorem State.setWait_getV (s : State) (w : Bool) (x : Reg) (r : Reg) : (s.setWait w x).getV r = s.getV r := rfl
@[simp] theorem State.setWait_getKey (s : State) (w : Bool) (x : Reg) (c : Key) : (s.setWait w x).getKey c = s.getKey c := rfl

/-! ### `State.setDirty` -/

@[simp] theorem State.setDirty_v (s : State) (b : Bool) : (s.setDirty b).v = s.v := rfl
@[simp] theorem State.setDirty_idx (s : State) (b : Bool) : (s.setDirty b).idx = s.idx := rfl
@[simp] theorem State.setDirty_pc (s : State) (b : Bool) : (s.setDirty b).pc = s.pc := rfl
@[simp] theorem State.setDirty_sp (s : State) (b : Bool) : (s.setDirty b).sp = s.sp := rfl
@[simp] theorem State.setDirty_stack (s : State) (b : Bool) : (s.setDirty b).stack = s.stack := rfl
@[simp] theorem State.setDirty_dt (s : State) (b : Bool) : (s.setDirty b).dt = s.dt := rfl
@[simp] theorem State.setDirty_st (s : State) (b : Bool) : (s.setDirty b).st = s.st := rfl
@[simp] theorem State.setDirty_q (s : State) (b : Bool) : (s.setDirty b).q = s.q := rfl
@[simp] theorem State.setDirty_fb (s : State) (b : Bool) : (s.setDirty b).fb = s.fb := rfl
@[simp] theorem State.setDirty_dirty (s : State) (b : Bool) : (s.setDirty b).dirty = b := rfl
@[simp] theorem State.setDirty_wait (s : State) (b : Bool) : (s.setDirty b).wait = s.wait := rfl
@[simp] theorem State.setDirty_waitX (s : State) (b : Bool) : (s.setDirty b).waitX = s.waitX := rfl
@[simp] theorem State.setDirty_halted (s : State) (b : Bool) : (s.setDirty b).halted = s.halted := rfl
@[simp] theorem State.setDirty_fcause (s : State) (b : Bool) : (s.setDirty b).fcause = s.fcause := rfl
@[simp] theorem State.setDirty_fpc (s : State) (b : Bool) : (s.setDirty b).fpc = s.fpc := rfl
@[simp] theorem State.setDirty_fop (s : State) (b : Bool) : (s.setDirty b).fop = s.fop := rfl
@[simp] theorem State.setDirty_mem (s : State) (b : Bool) : (s.setDirty b).mem = s.mem := rfl
@[simp] theorem State.setDirty_keys (s : State) (b : Bool) : (s.setDirty b).keys = s.keys := rfl
@[simp] theorem State.setDirty_pending (s : State) (b : Bool) : (s.setDirty b).pending = s.pending := rfl
@[simp] theorem State.setDirty_randIn (s : State) (b : Bool) : (s.setDirty b).randIn = s.randIn := rfl
@[simp] theorem State.setDirty_draws (s : State) (b : Bool) : (s.setDirty b).draws = s.draws := rfl
@[simp] theorem State.setDirty_frameEvents (s : State) (b : Bool) : (s.setDirty b).frameEvents = s.frameEvents := rfl
@[simp] theorem State.setDirty_getV (s : State) (b : Bool) (r : Reg) : (s.setDirty b).getV r = s.getV r := rfl
@[simp] theorem State.setDirty_getKey (s : State) (b : Bool) (c : Key) : (s.setDirty b).getKey c = s.getKey c := rfl

/-! ### `State.setKey` -/

@[simp] theorem State.setKey_v (s : State) (k : Key) (b : Bool) : (s.setKey k b).v = s.v := rfl
@[simp] theorem State.setKey_idx (s : State) (k : Key) (b : Bool) : (s.setKey k b).idx = s.idx := rfl
@[simp] theorem State.setKey_pc (s : State) (k : Key) (b : Bool) : (s.setKey k b).pc = s.pc := rfl
@[simp] theorem State.setKey_sp (s : State) (k : Key) (b : Bool) : (s.setKey k b).sp = s.sp := rfl
@[simp] theorem State.setKey_stack (s : State) (k : Key) (b : Bool) : (s.setKey k b).stack = s.stack := rfl
@[simp] theorem State.setKey_dt (s : State) (k : Key) (b : Bool) : (s.setKey k b).dt = s.dt := rfl
@[simp] theorem State.setKey_st (s : State) (k : Key) (b : Bool) : (s.setKey k b).st = s.st := rfl
@[simp] theorem State.setKey_q (s : State) (k : Key) (b : Bool) : (s.setKey k b).q = s.q := rfl
@[simp] theorem State.setKey_fb (s : State) (k : Key) (b : Bool) : (s.setKey k b).fb = s.fb := rfl
@[simp] theorem State.setKey_dirty (s : State) (k : Key) (b : Bool) : (s.setKey k b).dirty = s.dirty := rfl
@[simp] theorem State.setKey_wait (s : State) (k : Key) (b : Bool) : (s.setKey k b).wait = s.wait := rfl
@[simp] theorem State.setKey_waitX (s : State) (k : Key) (b : Bool) : (s.setKey k b).waitX = s.waitX := rfl
@[simp] theorem State.setKey_halted (s : State) (k : Key) (b : Bool) : (s.setKey k b).halted = s.halted := rfl
@[simp] theorem State.setKey_fcause (s : State) (k : Key) (b : Bool) : (s.setKey k b).fcause = s.fcause := rfl
@[simp] theorem State.setKey_fpc (s : State) (k : Key) (b : Bool) : (s.setKey k b).fpc = s.fpc := rfl
@[simp] theorem State.setKey_fop (s : State) (k : Key) (b : Bool) : (s.setKey k b).fop = s.fop := rfl
@[simp] theorem State.setKey_mem (s : State) (k : Key) (b : Bool) : (s.setKey k b).mem = s.mem := rfl
@[simp] theorem State.setKey_keys (s : State) (k : Key) (b : Bool) : (s.setKey k b).keys = s.keys.set k.val b k.isLt := rfl
@[simp] theorem State.setKey_pending (s : State) (k : Key) (b : Bool) : (s.setKey k b).pending = s.pending := rfl
@[simp] theorem State.setKey_randIn (s : State) (k : Key) (b : Bool) : (s.setKey k b).randIn = s.randIn := rfl
@[simp] theorem State.setKey_draws (s : State) (k : Key) (b : Bool) : (s.setKey k b).draws = s.draws := rfl
@[simp] theorem State.setKey_frameEvents (s : State) (k : Key) (b : Bool) : (s.setKey k b).frameEvents = s.frameEvents := rfl
@[simp] theorem State.setKey_getV (s : State) (k : Key) (b : Bool) (r : Reg) : (s.setKey k b).getV r = s.getV r := rfl

/-! ### `State.setPending` -/

@[simp] theorem State.setPending_v (s : State) (es : List HostEvent) : (s.setPending es).v = s.v := rfl
@[simp] theorem State.setPending_idx (s : State) (es : List HostEvent) : (s.setPending es).idx = s.idx := rfl
@[simp] theorem State.setPending_pc (s : State) (es : List HostEvent) : (s.setPending es).pc = s.pc := rfl
@[simp] theorem State.setPending_sp (s : State) (es : List HostEvent) : (s.setPending es).sp = s.sp := rfl
@[simp] theorem State.setPending_stack (s : State) (es : List HostEvent) : (s.setPending es).stack = s.stack := rfl
@[simp] theorem State.setPending_dt (s : State) (es : List HostEvent) : (s.setPending es).dt = s.dt := rfl
@[simp] theorem State.setPending_st (s : State) (es : List HostEvent) : (s.setPending es).st = s.st := rfl
@[simp] theorem State.setPending_q (s : State) (es : List HostEvent) : (s.setPending es).q = s.q := rfl
@[simp] theorem State.setPending_fb (s : State) (es : List HostEvent) : (s.setPending es).fb = s.fb := rfl
@[simp] theorem State.setPending_dirty (s : State) (es : List HostEvent) : (s.setPending es).dirty = s.dirty := rfl
@[simp] theorem State.setPending_wait (s : State) (es : List HostEvent) : (s.setPending es).wait = s.wait := rfl
@[simp] theorem State.setPending_waitX (s : State) (es : List HostEvent) : (s.setPending es).waitX = s.waitX := rfl
@[simp] theorem State.setPending_halted (s : State) (es : List HostEvent) : (s.setPending es).halted = s.halted := rfl
@[simp] theorem State.setPending_fcause (s : State) (es : List HostEvent) : (s.setPending es).fcause = s.fcause := rfl
@[simp] theorem State.setPending_fpc (s : State) (es : List HostEvent) : (s.setPending es).fpc = s.fpc := rfl
@[simp] theorem State.setPending_fop (s : State) (es : List HostEvent) : (s.setPending es).fop = s.fop := rfl
@[simp] theorem State.setPending_mem (s : State) (es : List HostEvent) : (s.setPending es).mem = s.mem := rfl
@[simp] theorem State.setPending_keys (s : State) (es : List HostEvent) : (s.setPending es).keys = s.keys := rfl
@[simp] theorem State.setPending_pending (s : State) (es : List HostEvent) : (s.setPending es).pending = es := rfl
@[simp] theorem State.setPending_randIn (s : State) (es : List HostEvent) : (s.setPending es).randIn = s.randIn := rfl
@[simp] theorem State.setPending_draws (s : State) (es : List HostEvent) : (s.setPending es).draws = s.draws := rfl
@[simp] theorem State.setPending_frameEvents (s : State) (es : List HostEvent) : (s.setPending es).frameEvents = s.frameEvents := rfl
@[simp] theorem State.setPending_getV (s : State) (es : List HostEvent) (r : Reg) : (s.setPending es).getV r = s.getV r := rfl
@[simp] theorem State.setPending_getKey (s : State) (es : List HostEvent) (c : Key) : (s.setPending es).getKey c = s.getKey c := rfl

/-! ### `State.setHalted` -/

@[simp] theorem State.setHalted_v (s : State) (b : Bool) : (s.setHalted b).v = s.v := rfl
@[simp] theorem State.setHalted_idx (s : State) (b : Bool) : (s.setHalted b).idx = s.idx := rfl
@[simp] theorem State.setHalted_pc (s : State) (b : Bool) : (s.setHalted b).pc = s.pc := rfl
@[simp] theorem State.setHalted_sp (s : State) (b : Bool) : (s.setHalted b).sp = s.sp := rfl
@[simp] theorem State.setHalted_stack (s : State) (b : Bool) : (s.setHalted b).stack = s.stack := rfl
@[simp] theorem State.setHalted_dt (s : State) (b : Bool) : (s.setHalted b).dt = s.dt := rfl
@[simp] theorem State.setHalted_st (s : State) (b : Bool) : (s.setHalted b).st = s.st := rfl
@[simp] theorem State.setHalted_q (s : State) (b : Bool) : (s.setHalted b).q = s.q := rfl
@[simp] theorem State.setHalted_fb (s : State) (b : Bool) : (s.setHalted b).fb = s.fb := rfl
@[simp] theorem State.setHalted_dirty (s : State) (b : Bool) : (s.setHalted b).dirty = s.dirty := rfl
@[simp] theorem State.setHalted_wait (s : State) (b : Bool) : (s.setHalted b).wait = s.wait := rfl
@[simp] theorem State.setHalted_waitX (s : State) (b : Bool) : (s.setHalted b).waitX = s.waitX := rfl
@[simp] theorem State.setHalted_halted (s : State) (b : Bool) : (s.setHalted b).halted = b := rfl
@[simp] theorem State.setHalted_fcause (s : State) (b : Bool) : (s.setHalted b).fcause = s.fcause := rfl
@[simp] theorem State.setHalted_fpc (s : State) (b : Bool) : (s.setHalted b).fpc = s.fpc := rfl
@[simp] theorem State.setHalted_fop (s : State) (b : Bool) : (s.setHalted b).fop = s.fop := rfl
@[simp] theorem State.setHalted_mem (s : State) (b : Bool) : (s.setHalted b).mem = s.mem := rfl
@[simp] theorem State.setHalted_keys (s : State) (b : Bool) : (s.setHalted b).keys = s.keys := rfl
@[simp] theorem State.setHalted_pending (s : State) (b : Bool) : (s.setHalted b).pending = s.pending := rfl
@[simp] theorem State.setHalted_randIn (s : State) (b : Bool) : (s.setHalted b).randIn = s.randIn := rfl
@[simp] theorem State.setHalted_draws (s : State) (b : Bool) : (s.setHalted b).draws = s.draws := rfl
@[simp] theorem State.setHalted_frameEvents (s : State) (b : Bool) : (s.setHalted b).frameEvents = s.frameEvents := rfl
@[simp] theorem State.setHalted_getV (s : State) (b : Bool) (r : Reg) : (s.setHalted b).getV r = s.getV r := rfl
@[simp] theorem State.setHalted_getKey (s : State) (b : Bool) (c : Key) : (s.setHalted b).getKey c = s.getKey c := rfl

/-! ### `State.setCalls` -/

@[simp] theorem State.setCalls_v (s : State) (stk : Vector Word 16) (p : Fin 17) : (s.setCalls stk p).v = s.v := rfl
@[simp] theorem State.setCalls_idx (s : State) (stk : Vector Word 16) (p : Fin 17) : (s.setCalls stk p).idx = s.idx := rfl
@[simp] theorem State.setCalls_pc (s : State) (stk : Vector Word 16) (p : Fin 17) : (s.setCalls stk p).pc = s.pc := rfl
@[simp] theorem State.setCalls_sp (s : State) (stk : Vector Word 16) (p : Fin 17) : (s.setCalls stk p).sp = p := rfl
@[simp] theorem State.setCalls_stack (s : State) (stk : Vector Word 16) (p : Fin 17) : (s.setCalls stk p).stack = stk := rfl
@[simp] theorem State.setCalls_dt (s : State) (stk : Vector Word 16) (p : Fin 17) : (s.setCalls stk p).dt = s.dt := rfl
@[simp] theorem State.setCalls_st (s : State) (stk : Vector Word 16) (p : Fin 17) : (s.setCalls stk p).st = s.st := rfl
@[simp] theorem State.setCalls_q (s : State) (stk : Vector Word 16) (p : Fin 17) : (s.setCalls stk p).q = s.q := rfl
@[simp] theorem State.setCalls_fb (s : State) (stk : Vector Word 16) (p : Fin 17) : (s.setCalls stk p).fb = s.fb := rfl
@[simp] theorem State.setCalls_dirty (s : State) (stk : Vector Word 16) (p : Fin 17) : (s.setCalls stk p).dirty = s.dirty := rfl
@[simp] theorem State.setCalls_wait (s : State) (stk : Vector Word 16) (p : Fin 17) : (s.setCalls stk p).wait = s.wait := rfl
@[simp] theorem State.setCalls_waitX (s : State) (stk : Vector Word 16) (p : Fin 17) : (s.setCalls stk p).waitX = s.waitX := rfl
@[simp] theorem State.setCalls_halted (s : State) (stk : Vector Word 16) (p : Fin 17) : (s.setCalls stk p).halted = s.halted := rfl
@[simp] theorem State.setCalls_fcause (s : State) (stk : Vector Word 16) (p : Fin 17) : (s.setCalls stk p).fcause = s.fcause := rfl
@[simp] theorem State.setCalls_fpc (s : State) (stk : Vector Word 16) (p : Fin 17) : (s.setCalls stk p).fpc = s.fpc := rfl
@[simp] theorem State.setCalls_fop (s : State) (stk : Vector Word 16) (p : Fin 17) : (s.setCalls stk p).fop = s.fop := rfl
@[simp] theorem State.setCalls_mem (s : State) (stk : Vector Word 16) (p : Fin 17) : (s.setCalls stk p).mem = s.mem := rfl
@[simp] theorem State.setCalls_keys (s : State) (stk : Vector Word 16) (p : Fin 17) : (s.setCalls stk p).keys = s.keys := rfl
@[simp] theorem State.setCalls_pending (s : State) (stk : Vector Word 16) (p : Fin 17) : (s.setCalls stk p).pending = s.pending := rfl
@[simp] theorem State.setCalls_randIn (s : State) (stk : Vector Word 16) (p : Fin 17) : (s.setCalls stk p).randIn = s.randIn := rfl
@[simp] theorem State.setCalls_draws (s : State) (stk : Vector Word 16) (p : Fin 17) : (s.setCalls stk p).draws = s.draws := rfl
@[simp] theorem State.setCalls_frameEvents (s : State) (stk : Vector Word 16) (p : Fin 17) : (s.setCalls stk p).frameEvents = s.frameEvents := rfl
@[simp] theorem State.setCalls_getV (s : State) (stk : Vector Word 16) (p : Fin 17) (r : Reg) : (s.setCalls stk p).getV r = s.getV r := rfl
@[simp] theorem State.setCalls_getKey (s : State) (stk : Vector Word 16) (p : Fin 17) (c : Key) : (s.setCalls stk p).getKey c = s.getKey c := rfl

/-! ### `State.present` -/

@[simp] theorem State.present_v (s : State) (d : Display) (b : Bool) : (s.present d b).v = s.v := rfl
@[simp] theorem State.present_idx (s : State) (d : Display) (b : Bool) : (s.present d b).idx = s.idx := rfl
@[simp] theorem State.present_pc (s : State) (d : Display) (b : Bool) : (s.present d b).pc = s.pc := rfl
@[simp] theorem State.present_sp (s : State) (d : Display) (b : Bool) : (s.present d b).sp = s.sp := rfl
@[simp] theorem State.present_stack (s : State) (d : Display) (b : Bool) : (s.present d b).stack = s.stack := rfl
@[simp] theorem State.present_dt (s : State) (d : Display) (b : Bool) : (s.present d b).dt = s.dt := rfl
@[simp] theorem State.present_st (s : State) (d : Display) (b : Bool) : (s.present d b).st = s.st := rfl
@[simp] theorem State.present_q (s : State) (d : Display) (b : Bool) : (s.present d b).q = s.q := rfl
@[simp] theorem State.present_fb (s : State) (d : Display) (b : Bool) : (s.present d b).fb = d := rfl
@[simp] theorem State.present_dirty (s : State) (d : Display) (b : Bool) : (s.present d b).dirty = b := rfl
@[simp] theorem State.present_wait (s : State) (d : Display) (b : Bool) : (s.present d b).wait = s.wait := rfl
@[simp] theorem State.present_waitX (s : State) (d : Display) (b : Bool) : (s.present d b).waitX = s.waitX := rfl
@[simp] theorem State.present_halted (s : State) (d : Display) (b : Bool) : (s.present d b).halted = s.halted := rfl
@[simp] theorem State.present_fcause (s : State) (d : Display) (b : Bool) : (s.present d b).fcause = s.fcause := rfl
@[simp] theorem State.present_fpc (s : State) (d : Display) (b : Bool) : (s.present d b).fpc = s.fpc := rfl
@[simp] theorem State.present_fop (s : State) (d : Display) (b : Bool) : (s.present d b).fop = s.fop := rfl
@[simp] theorem State.present_mem (s : State) (d : Display) (b : Bool) : (s.present d b).mem = s.mem := rfl
@[simp] theorem State.present_keys (s : State) (d : Display) (b : Bool) : (s.present d b).keys = s.keys := rfl
@[simp] theorem State.present_pending (s : State) (d : Display) (b : Bool) : (s.present d b).pending = s.pending := rfl
@[simp] theorem State.present_randIn (s : State) (d : Display) (b : Bool) : (s.present d b).randIn = s.randIn := rfl
@[simp] theorem State.present_draws (s : State) (d : Display) (b : Bool) : (s.present d b).draws = s.draws := rfl
@[simp] theorem State.present_frameEvents (s : State) (d : Display) (b : Bool) : (s.present d b).frameEvents = s.frameEvents + 1 := rfl
@[simp] theorem State.present_getV (s : State) (d : Display) (b : Bool) (r : Reg) : (s.present d b).getV r = s.getV r := rfl
@[simp] theorem State.present_getKey (s : State) (d : Display) (b : Bool) (c : Key) : (s.present d b).getKey c = s.getKey c := rfl

/-! ### `State.raiseFault` -/

@[simp] theorem State.raiseFault_v (s : State) (k : FaultKind) (a w : Word) : (s.raiseFault k a w).v = s.v := rfl
@[simp] theorem State.raiseFault_idx (s : State) (k : FaultKind) (a w : Word) : (s.raiseFault k a w).idx = s.idx := rfl
@[simp] theorem State.raiseFault_pc (s : State) (k : FaultKind) (a w : Word) : (s.raiseFault k a w).pc = s.pc := rfl
@[simp] theorem State.raiseFault_sp (s : State) (k : FaultKind) (a w : Word) : (s.raiseFault k a w).sp = s.sp := rfl
@[simp] theorem State.raiseFault_stack (s : State) (k : FaultKind) (a w : Word) : (s.raiseFault k a w).stack = s.stack := rfl
@[simp] theorem State.raiseFault_dt (s : State) (k : FaultKind) (a w : Word) : (s.raiseFault k a w).dt = s.dt := rfl
@[simp] theorem State.raiseFault_st (s : State) (k : FaultKind) (a w : Word) : (s.raiseFault k a w).st = s.st := rfl
@[simp] theorem State.raiseFault_q (s : State) (k : FaultKind) (a w : Word) : (s.raiseFault k a w).q = s.q := rfl
@[simp] theorem State.raiseFault_fb (s : State) (k : FaultKind) (a w : Word) : (s.raiseFault k a w).fb = s.fb := rfl
@[simp] theorem State.raiseFault_dirty (s : State) (k : FaultKind) (a w : Word) : (s.raiseFault k a w).dirty = s.dirty := rfl
@[simp] theorem State.raiseFault_wait (s : State) (k : FaultKind) (a w : Word) : (s.raiseFault k a w).wait = s.wait := rfl
@[simp] theorem State.raiseFault_waitX (s : State) (k : FaultKind) (a w : Word) : (s.raiseFault k a w).waitX = s.waitX := rfl
@[simp] theorem State.raiseFault_halted (s : State) (k : FaultKind) (a w : Word) : (s.raiseFault k a w).halted = true := rfl
@[simp] theorem State.raiseFault_fcause (s : State) (k : FaultKind) (a w : Word) : (s.raiseFault k a w).fcause = faultCode k := rfl
@[simp] theorem State.raiseFault_fpc (s : State) (k : FaultKind) (a w : Word) : (s.raiseFault k a w).fpc = a := rfl
@[simp] theorem State.raiseFault_fop (s : State) (k : FaultKind) (a w : Word) : (s.raiseFault k a w).fop = w := rfl
@[simp] theorem State.raiseFault_mem (s : State) (k : FaultKind) (a w : Word) : (s.raiseFault k a w).mem = s.mem := rfl
@[simp] theorem State.raiseFault_keys (s : State) (k : FaultKind) (a w : Word) : (s.raiseFault k a w).keys = s.keys := rfl
@[simp] theorem State.raiseFault_pending (s : State) (k : FaultKind) (a w : Word) : (s.raiseFault k a w).pending = s.pending := rfl
@[simp] theorem State.raiseFault_randIn (s : State) (k : FaultKind) (a w : Word) : (s.raiseFault k a w).randIn = s.randIn := rfl
@[simp] theorem State.raiseFault_draws (s : State) (k : FaultKind) (a w : Word) : (s.raiseFault k a w).draws = s.draws := rfl
@[simp] theorem State.raiseFault_frameEvents (s : State) (k : FaultKind) (a w : Word) : (s.raiseFault k a w).frameEvents = s.frameEvents := rfl
@[simp] theorem State.raiseFault_getV (s : State) (k : FaultKind) (a w : Word) (r : Reg) : (s.raiseFault k a w).getV r = s.getV r := rfl
@[simp] theorem State.raiseFault_getKey (s : State) (k : FaultKind) (a w : Word) (c : Key) : (s.raiseFault k a w).getKey c = s.getKey c := rfl

/-! ### `State.execFault` -/

@[simp] theorem State.execFault_v (s : State) (k : FaultKind) (i : Instr) : (s.execFault k i).v = s.v := rfl
@[simp] theorem State.execFault_idx (s : State) (k : FaultKind) (i : Instr) : (s.execFault k i).idx = s.idx := rfl
@[simp] theorem State.execFault_pc (s : State) (k : FaultKind) (i : Instr) : (s.execFault k i).pc = s.pc := rfl
@[simp] theorem State.execFault_sp (s : State) (k : FaultKind) (i : Instr) : (s.execFault k i).sp = s.sp := rfl
@[simp] theorem State.execFault_stack (s : State) (k : FaultKind) (i : Instr) : (s.execFault k i).stack = s.stack := rfl
@[simp] theorem State.execFault_dt (s : State) (k : FaultKind) (i : Instr) : (s.execFault k i).dt = s.dt := rfl
@[simp] theorem State.execFault_st (s : State) (k : FaultKind) (i : Instr) : (s.execFault k i).st = s.st := rfl
@[simp] theorem State.execFault_q (s : State) (k : FaultKind) (i : Instr) : (s.execFault k i).q = s.q := rfl
@[simp] theorem State.execFault_fb (s : State) (k : FaultKind) (i : Instr) : (s.execFault k i).fb = s.fb := rfl
@[simp] theorem State.execFault_dirty (s : State) (k : FaultKind) (i : Instr) : (s.execFault k i).dirty = s.dirty := rfl
@[simp] theorem State.execFault_wait (s : State) (k : FaultKind) (i : Instr) : (s.execFault k i).wait = s.wait := rfl
@[simp] theorem State.execFault_waitX (s : State) (k : FaultKind) (i : Instr) : (s.execFault k i).waitX = s.waitX := rfl
@[simp] theorem State.execFault_halted (s : State) (k : FaultKind) (i : Instr) : (s.execFault k i).halted = true := rfl
@[simp] theorem State.execFault_fcause (s : State) (k : FaultKind) (i : Instr) : (s.execFault k i).fcause = faultCode k := rfl
@[simp] theorem State.execFault_fpc (s : State) (k : FaultKind) (i : Instr) : (s.execFault k i).fpc = s.instrAddr := rfl
@[simp] theorem State.execFault_fop (s : State) (k : FaultKind) (i : Instr) : (s.execFault k i).fop = encode i := rfl
@[simp] theorem State.execFault_mem (s : State) (k : FaultKind) (i : Instr) : (s.execFault k i).mem = s.mem := rfl
@[simp] theorem State.execFault_keys (s : State) (k : FaultKind) (i : Instr) : (s.execFault k i).keys = s.keys := rfl
@[simp] theorem State.execFault_pending (s : State) (k : FaultKind) (i : Instr) : (s.execFault k i).pending = s.pending := rfl
@[simp] theorem State.execFault_randIn (s : State) (k : FaultKind) (i : Instr) : (s.execFault k i).randIn = s.randIn := rfl
@[simp] theorem State.execFault_draws (s : State) (k : FaultKind) (i : Instr) : (s.execFault k i).draws = s.draws := rfl
@[simp] theorem State.execFault_frameEvents (s : State) (k : FaultKind) (i : Instr) : (s.execFault k i).frameEvents = s.frameEvents := rfl
@[simp] theorem State.execFault_getV (s : State) (k : FaultKind) (i : Instr) (r : Reg) : (s.execFault k i).getV r = s.getV r := rfl
@[simp] theorem State.execFault_getKey (s : State) (k : FaultKind) (i : Instr) (c : Key) : (s.execFault k i).getKey c = s.getKey c := rfl

/-! ### `State.skipIf` -/

@[simp] theorem State.skipIf_v (s : State) (c : Bool) : (s.skipIf c).v = s.v := by cases c <;> rfl
@[simp] theorem State.skipIf_idx (s : State) (c : Bool) : (s.skipIf c).idx = s.idx := by cases c <;> rfl
@[simp] theorem State.skipIf_pc (s : State) (c : Bool) : (s.skipIf c).pc = if c = true then s.pc + 2 else s.pc := by cases c <;> rfl
@[simp] theorem State.skipIf_sp (s : State) (c : Bool) : (s.skipIf c).sp = s.sp := by cases c <;> rfl
@[simp] theorem State.skipIf_stack (s : State) (c : Bool) : (s.skipIf c).stack = s.stack := by cases c <;> rfl
@[simp] theorem State.skipIf_dt (s : State) (c : Bool) : (s.skipIf c).dt = s.dt := by cases c <;> rfl
@[simp] theorem State.skipIf_st (s : State) (c : Bool) : (s.skipIf c).st = s.st := by cases c <;> rfl
@[simp] theorem State.skipIf_q (s : State) (c : Bool) : (s.skipIf c).q = s.q := by cases c <;> rfl
@[simp] theorem State.skipIf_fb (s : State) (c : Bool) : (s.skipIf c).fb = s.fb := by cases c <;> rfl
@[simp] theorem State.skipIf_dirty (s : State) (c : Bool) : (s.skipIf c).dirty = s.dirty := by cases c <;> rfl
@[simp] theorem State.skipIf_wait (s : State) (c : Bool) : (s.skipIf c).wait = s.wait := by cases c <;> rfl
@[simp] theorem State.skipIf_waitX (s : State) (c : Bool) : (s.skipIf c).waitX = s.waitX := by cases c <;> rfl
@[simp] theorem State.skipIf_halted (s : State) (c : Bool) : (s.skipIf c).halted = s.halted := by cases c <;> rfl
@[simp] theorem State.skipIf_fcause (s : State) (c : Bool) : (s.skipIf c).fcause = s.fcause := by cases c <;> rfl
@[simp] theorem State.skipIf_fpc (s : State) (c : Bool) : (s.skipIf c).fpc = s.fpc := by cases c <;> rfl
@[simp] theorem State.skipIf_fop (s : State) (c : Bool) : (s.skipIf c).fop = s.fop := by cases c <;> rfl
@[simp] theorem State.skipIf_mem (s : State) (c : Bool) : (s.skipIf c).mem = s.mem := by cases c <;> rfl
@[simp] theorem State.skipIf_keys (s : State) (c : Bool) : (s.skipIf c).keys = s.keys := by cases c <;> rfl
@[simp] theorem State.skipIf_pending (s : State) (c : Bool) : (s.skipIf c).pending = s.pending := by cases c <;> rfl
@[simp] theorem State.skipIf_randIn (s : State) (c : Bool) : (s.skipIf c).randIn = s.randIn := by cases c <;> rfl
@[simp] theorem State.skipIf_draws (s : State) (c : Bool) : (s.skipIf c).draws = s.draws := by cases c <;> rfl
@[simp] theorem State.skipIf_frameEvents (s : State) (c : Bool) : (s.skipIf c).frameEvents = s.frameEvents := by cases c <;> rfl
@[simp] theorem State.skipIf_getV (s : State) (c : Bool) (r : Reg) : (s.skipIf c).getV r = s.getV r := by cases c <;> rfl

/-! ### `State.bumpI` -/

@[simp] theorem State.bumpI_v (s : State) (c : Bool) (x : Reg) : (s.bumpI c x).v = s.v := by cases c <;> rfl
@[simp] theorem State.bumpI_idx (s : State) (c : Bool) (x : Reg) : (s.bumpI c x).idx = if c = true then s.idx + BitVec.ofNat 16 x.val else s.idx := by cases c <;> rfl
@[simp] theorem State.bumpI_pc (s : State) (c : Bool) (x : Reg) : (s.bumpI c x).pc = s.pc := by cases c <;> rfl
@[simp] theorem State.bumpI_sp (s : State) (c : Bool) (x : Reg) : (s.bumpI c x).sp = s.sp := by cases c <;> rfl
@[simp] theorem State.bumpI_stack (s : State) (c : Bool) (x : Reg) : (s.bumpI c x).stack = s.stack := by cases c <;> rfl
@[simp] theorem State.bumpI_dt (s : State) (c : Bool) (x : Reg) : (s.bumpI c x).dt = s.dt := by cases c <;> rfl
@[simp] theorem State.bumpI_st (s : State) (c : Bool) (x : Reg) : (s.bumpI c x).st = s.st := by cases c <;> rfl
@[simp] theorem State.bumpI_q (s : State) (c : Bool) (x : Reg) : (s.bumpI c x).q = s.q := by cases c <;> rfl
@[simp] theorem State.bumpI_fb (s : State) (c : Bool) (x : Reg) : (s.bumpI c x).fb = s.fb := by cases c <;> rfl
@[simp] theorem State.bumpI_dirty (s : State) (c : Bool) (x : Reg) : (s.bumpI c x).dirty = s.dirty := by cases c <;> rfl
@[simp] theorem State.bumpI_wait (s : State) (c : Bool) (x : Reg) : (s.bumpI c x).wait = s.wait := by cases c <;> rfl
@[simp] theorem State.bumpI_waitX (s : State) (c : Bool) (x : Reg) : (s.bumpI c x).waitX = s.waitX := by cases c <;> rfl
@[simp] theorem State.bumpI_halted (s : State) (c : Bool) (x : Reg) : (s.bumpI c x).halted = s.halted := by cases c <;> rfl
@[simp] theorem State.bumpI_fcause (s : State) (c : Bool) (x : Reg) : (s.bumpI c x).fcause = s.fcause := by cases c <;> rfl
@[simp] theorem State.bumpI_fpc (s : State) (c : Bool) (x : Reg) : (s.bumpI c x).fpc = s.fpc := by cases c <;> rfl
@[simp] theorem State.bumpI_fop (s : State) (c : Bool) (x : Reg) : (s.bumpI c x).fop = s.fop := by cases c <;> rfl
@[simp] theorem State.bumpI_mem (s : State) (c : Bool) (x : Reg) : (s.bumpI c x).mem = s.mem := by cases c <;> rfl
@[simp] theorem State.bumpI_keys (s : State) (c : Bool) (x : Reg) : (s.bumpI c x).keys = s.keys := by cases c <;> rfl
@[simp] theorem State.bumpI_pending (s : State) (c : Bool) (x : Reg) : (s.bumpI c x).pending = s.pending := by cases c <;> rfl
@[simp] theorem State.bumpI_randIn (s : State) (c : Bool) (x : Reg) : (s.bumpI c x).randIn = s.randIn := by cases c <;> rfl
@[simp] theorem State.bumpI_draws (s : State) (c : Bool) (x : Reg) : (s.bumpI c x).draws = s.draws := by cases c <;> rfl
@[simp] theorem State.bumpI_frameEvents (s : State) (c : Bool) (x : Reg) : (s.bumpI c x).frameEvents = s.frameEvents := by cases c <;> rfl
@[simp] theorem State.bumpI_getV (s : State) (c : Bool) (x : Reg) (r : Reg) : (s.bumpI c x).getV r = s.getV r := by cases c <;> rfl

/-! ### The state after a draw -/

@[simp] theorem State.drawRand_v (s : State) : s.drawRand.2.v = s.v := by
  unfold State.drawRand
  split <;> rfl
@[simp] theorem State.drawRand_idx (s : State) : s.drawRand.2.idx = s.idx := by
  unfold State.drawRand
  split <;> rfl
@[simp] theorem State.drawRand_pc (s : State) : s.drawRand.2.pc = s.pc := by
  unfold State.drawRand
  split <;> rfl
@[simp] theorem State.drawRand_sp (s : State) : s.drawRand.2.sp = s.sp := by
  unfold State.drawRand
  split <;> rfl
@[simp] theorem State.drawRand_stack (s : State) : s.drawRand.2.stack = s.stack := by
  unfold State.drawRand
  split <;> rfl
@[simp] theorem State.drawRand_dt (s : State) : s.drawRand.2.dt = s.dt := by
  unfold State.drawRand
  split <;> rfl
@[simp] theorem State.drawRand_st (s : State) : s.drawRand.2.st = s.st := by
  unfold State.drawRand
  split <;> rfl
@[simp] theorem State.drawRand_q (s : State) : s.drawRand.2.q = s.q := by
  unfold State.drawRand
  split <;> rfl
@[simp] theorem State.drawRand_fb (s : State) : s.drawRand.2.fb = s.fb := by
  unfold State.drawRand
  split <;> rfl
@[simp] theorem State.drawRand_dirty (s : State) : s.drawRand.2.dirty = s.dirty := by
  unfold State.drawRand
  split <;> rfl
@[simp] theorem State.drawRand_wait (s : State) : s.drawRand.2.wait = s.wait := by
  unfold State.drawRand
  split <;> rfl
@[simp] theorem State.drawRand_waitX (s : State) : s.drawRand.2.waitX = s.waitX := by
  unfold State.drawRand
  split <;> rfl
@[simp] theorem State.drawRand_halted (s : State) : s.drawRand.2.halted = s.halted := by
  unfold State.drawRand
  split <;> rfl
@[simp] theorem State.drawRand_fcause (s : State) : s.drawRand.2.fcause = s.fcause := by
  unfold State.drawRand
  split <;> rfl
@[simp] theorem State.drawRand_fpc (s : State) : s.drawRand.2.fpc = s.fpc := by
  unfold State.drawRand
  split <;> rfl
@[simp] theorem State.drawRand_fop (s : State) : s.drawRand.2.fop = s.fop := by
  unfold State.drawRand
  split <;> rfl
@[simp] theorem State.drawRand_mem (s : State) : s.drawRand.2.mem = s.mem := by
  unfold State.drawRand
  split <;> rfl
@[simp] theorem State.drawRand_keys (s : State) : s.drawRand.2.keys = s.keys := by
  unfold State.drawRand
  split <;> rfl
@[simp] theorem State.drawRand_pending (s : State) : s.drawRand.2.pending = s.pending := by
  unfold State.drawRand
  split <;> rfl
@[simp] theorem State.drawRand_frameEvents (s : State) : s.drawRand.2.frameEvents = s.frameEvents := by
  unfold State.drawRand
  split <;> rfl
@[simp] theorem State.drawRand_getV (s : State) (r : Reg) : s.drawRand.2.getV r = s.getV r := by
  unfold State.drawRand
  split <;> rfl

end Sys2Proof.Machine
end

