-- ==== Sys2Proof/Laws/Ops.lean ====
section
/-! SUPPORT. One lemma per shared operation that says what it can do: registers, keys, the call stack,
the draw, pixels. -/

namespace Sys2Proof.Machine

/-! ### Registers and keys -/

@[simp] theorem State.getV_setV (s : State) (x r : Reg) (b : Byte) :
    (s.setV x b).getV r = if r = x then b else s.getV r := by
  simp only [State.getV, State.setV, Vector.get_eq_getElem, Vector.getElem_set, Fin.ext_iff]
  by_cases h : x.val = r.val
  · simp [h]
  · simp [h, Ne.symm h]

@[simp] theorem State.getKey_setKey (s : State) (k c : Key) (b : Bool) :
    (s.setKey k b).getKey c = if c = k then b else s.getKey c := by
  simp only [State.getKey, State.setKey, Vector.get_eq_getElem, Vector.getElem_set, Fin.ext_iff]
  by_cases h : k.val = c.val
  · simp [h]
  · simp [h, Ne.symm h]

/-! ### Data addresses (R63, R167) -/

theorem State.dataAddr_eq (s : State) (k : Nat) : s.dataAddr k = s.idx.toNat + k := rfl

theorem State.dataAddr_add (s : State) (k : Nat) : s.dataAddr 0 + k = s.dataAddr k := rfl

@[simp] theorem pastEnd_eq_true (hi : Nat) : pastEnd hi = true ↔ 0xFFF < hi := by simp [pastEnd]

@[simp] theorem pastEnd_eq_false (hi : Nat) : pastEnd hi = false ↔ hi ≤ 0xFFF := by simp [pastEnd]

/-- A byte stored from I on is read back at its data address. -/
theorem State.read_stored (s : State) (bs : List Byte) (k : Nat) (h : k < bs.length) :
    (s.mem.writeBytes (s.dataAddr 0) bs).read (s.dataAddr k) = bs[k] :=
  Memory.read_writeBytes_inside bs s.mem (s.dataAddr 0) k h

/-! ### Loading registers (R165) -/

/-- The first `n` registers come from memory, the others stay. -/
theorem loadRegs_get (m : Memory) (base : Nat) (v : Vector Byte 16) (n : Nat) (r : Reg) :
    (loadRegs m base v n).get r = if r.val < n then m.read (base + r.val) else v.get r := by
  induction n with
  | zero => rfl
  | succ n ih =>
    simp only [loadRegs, Vector.get_eq_getElem, Vector.getElem_setIfInBounds] at ih ⊢
    by_cases h : n = r.val
    · subst h; simp
    · rw [if_neg h, ih]
      by_cases h' : r.val < n
      · simp [h', Nat.lt_succ_of_lt h']
      · simp [h', show ¬ r.val < n + 1 by omega]

/-- The list of V0 to VX holds each of them in its place. -/
theorem State.regsUpTo_getElem (s : State) (x r : Reg) (h : r.val < (s.regsUpTo x).length) :
    (s.regsUpTo x)[r.val] = s.getV r := by
  simp [State.regsUpTo, State.getV, Vector.get_eq_getElem]

theorem State.regsUpTo_length (s : State) (x : Reg) : (s.regsUpTo x).length = x.val + 1 := by
  simp [State.regsUpTo]

/-! ### Call stack (R31) -/

theorem State.push_cases (s : State) (t : Word) :
    (s.sp.val = 16 ∧ s.push t = none) ∨
    (∃ h : s.sp.val < 16,
      s.push t = some (s.setCalls (s.stack.set s.sp.val t h) ⟨s.sp.val + 1, by omega⟩)) := by
  unfold State.push
  split
  · exact .inr ⟨‹_›, rfl⟩
  · exact .inl ⟨by omega, rfl⟩

theorem State.pop_cases (s : State) :
    (s.sp.val = 0 ∧ s.pop = none) ∨
    (∃ h : 0 < s.sp.val,
      s.pop = some (s.stack[s.sp.val - 1]'(by omega), s.setCalls s.stack ⟨s.sp.val - 1, by omega⟩)) := by
  unfold State.pop
  split
  · exact .inr ⟨‹_›, rfl⟩
  · exact .inl ⟨by omega, rfl⟩

/-! ### The draw (R153) -/

theorem State.drawRand_cases (s : State) :
    (∃ r rest, s.randIn = r :: rest ∧ s.drawRand = (r, { s with randIn := rest })) ∨
    (s.randIn = [] ∧ s.drawRand = (Config.freeRand s.draws, { s with draws := s.draws + 1 })) := by
  unfold State.drawRand
  split
  · exact .inl ⟨_, _, ‹_›, rfl⟩
  · exact .inr ⟨‹_›, rfl⟩

/-! ### Pixels (R39) -/

@[simp] theorem pixel_setPixel (fb : Display) (y y' : Fin 32) (x x' : Fin 64) (b : Bool) :
    pixel (setPixel fb y x b) y' x' = if y' = y ∧ x' = x then b else pixel fb y' x' := by
  simp only [pixel, setPixel, Vector.get_eq_getElem, Vector.getElem_set, Fin.ext_iff]
  by_cases hy : y.val = y'.val
  · by_cases hx : x.val = x'.val
    · simp [hy, hx]
    · simp [hy, hx, Ne.symm hx]
  · simp [hy, Ne.symm hy]

/-- One sprite bit turns its pixel over, leaves every other, and collides exactly with an on pixel. -/
theorem drawPixel_spec (d : Display × Bool) (y : Fin 32) (x : Fin 64) :
    (∀ y' x', pixel (drawPixel d y x).1 y' x' =
      if y' = y ∧ x' = x then !pixel d.1 y' x' else pixel d.1 y' x') ∧
    (drawPixel d y x).2 = (d.2 || pixel d.1 y x) := by
  unfold drawPixel
  split
  · rename_i h
    refine ⟨fun y' x' => ?_, by simp [h]⟩
    simp only [pixel_setPixel]
    split
    · rename_i hp; obtain ⟨rfl, rfl⟩ := hp; simp [h]
    · rfl
  · rename_i h
    refine ⟨fun y' x' => ?_, by simp [h]⟩
    simp only [pixel_setPixel]
    split
    · rename_i hp; obtain ⟨rfl, rfl⟩ := hp; simp [h]
    · rfl

end Sys2Proof.Machine
end

