-- ==== Sys2Proof/Laws/Draw.lean ====
section
/-! SUPPORT. The sprite engine, said once: the pixels that some columns or some rows of a sprite turn over,
and the collision they give (44_display.md R170, R172). No pixel is covered twice, since a sprite has
8 columns of 64 and at most 15 rows of 32. -/

namespace Sys2Proof.Machine

/-- The first `n` columns of the sprite row `b` set a bit at column `x`. -/
def colsCover (vx b : Byte) (n : Nat) (x : Fin 64) : Prop :=
  ∃ c, c < n ∧ b.getLsbD (7 - c) = true ∧ x.val = (vx.toNat + c) % 64

theorem colsCover_succ (vx b : Byte) (n : Nat) (x : Fin 64) :
    colsCover vx b (n + 1) x ↔
      colsCover vx b n x ∨ (b.getLsbD (7 - n) = true ∧ x = spriteCol vx n) := by
  constructor
  · rintro ⟨c, hc, hb, hx⟩
    rcases Nat.lt_succ_iff_lt_or_eq.mp hc with h | rfl
    · exact .inl ⟨c, h, hb, hx⟩
    · exact .inr ⟨hb, Fin.ext hx⟩
  · rintro (⟨c, hc, hb, hx⟩ | ⟨hb, rfl⟩)
    · exact ⟨c, by omega, hb, hx⟩
    · exact ⟨n, by omega, hb, rfl⟩

/-- Columns before the `n`-th do not reach the column of the `n`-th. -/
theorem not_colsCover_spriteCol (vx b : Byte) (n : Nat) (hn : n < 8) :
    ¬ colsCover vx b n (spriteCol vx n) := by
  rintro ⟨c, hc, -, hx⟩
  simp only [spriteCol] at hx
  omega

/-- The columns of one sprite row turn over the pixels of row `y` they cover, and no other; they collide
exactly when one of those pixels was on. -/
theorem drawCols_spec (d : Display × Bool) (vx : Byte) (y : Fin 32) (b : Byte) (n : Nat) (hn : n ≤ 8) :
    (∀ y' x', y' = y ∧ colsCover vx b n x' →
      pixel (drawCols d vx y b n).1 y' x' = !pixel d.1 y' x') ∧
    (∀ y' x', ¬ (y' = y ∧ colsCover vx b n x') →
      pixel (drawCols d vx y b n).1 y' x' = pixel d.1 y' x') ∧
    ((drawCols d vx y b n).2 = true ↔
      d.2 = true ∨ ∃ x', colsCover vx b n x' ∧ pixel d.1 y x' = true) := by
  induction n with
  | zero => exact ⟨fun _ _ ⟨_, c, hc, _⟩ => absurd hc (by omega), fun _ _ _ => rfl,
      ⟨.inl, fun h => h.elim id fun ⟨_, ⟨c, hc, _⟩, _⟩ => absurd hc (by omega)⟩⟩
  | succ n ih =>
    obtain ⟨ih1, ih2, ih3⟩ := ih (by omega)
    simp only [drawCols]
    by_cases hb : spriteBit b n = true
    · have hs : ∀ x', colsCover vx b (n + 1) x' ↔ colsCover vx b n x' ∨ x' = spriteCol vx n :=
        fun x' => by
          rw [colsCover_succ, show b.getLsbD (7 - n) = true from hb]; simp
      have hnew := not_colsCover_spriteCol vx b n (by omega)
      have hold := ih2 y (spriteCol vx n) (fun h => hnew h.2)
      obtain ⟨hp, hf⟩ := drawPixel_spec (drawCols d vx y b n) y (spriteCol vx n)
      rw [if_pos hb]
      simp only [hs, hp, hf, Bool.or_eq_true, ih3, hold]
      refine ⟨fun y' x' h => ?_, fun y' x' h => ?_, ?_⟩
      · by_cases hx : x' = spriteCol vx n
        · rw [if_pos ⟨h.1, hx⟩, h.1, hx, hold]
        · rw [if_neg (fun h' => hx h'.2)]
          exact ih1 y' x' ⟨h.1, h.2.resolve_right hx⟩
      · rw [if_neg (fun h' => h ⟨h'.1, .inr h'.2⟩)]
        exact ih2 y' x' (fun h' => h ⟨h'.1, .inl h'.2⟩)
      · constructor
        · rintro ((h | ⟨x', h, h'⟩) | h)
          · exact .inl h
          · exact .inr ⟨x', .inl h, h'⟩
          · exact .inr ⟨_, .inr rfl, h⟩
        · rintro (h | ⟨x', h | rfl, h'⟩)
          · exact .inl (.inl h)
          · exact .inl (.inr ⟨x', h, h'⟩)
          · exact .inr h'
    · have hs : ∀ x', colsCover vx b (n + 1) x' ↔ colsCover vx b n x' := fun x' => by
        rw [colsCover_succ, show b.getLsbD (7 - n) = false by simpa [spriteBit] using hb]; simp
      rw [if_neg hb]
      simp only [hs]
      exact ⟨ih1, ih2, ih3⟩

theorem spriteCovers_succ (m : Memory) (base : Nat) (vx vy : Byte) (n : Nat) (y : Fin 32) (x : Fin 64) :
    spriteCovers m base vx vy (n + 1) y x ↔
      spriteCovers m base vx vy n y x ∨ (y = spriteRow vy n ∧ colsCover vx (m.read (base + n)) 8 x) := by
  constructor
  · rintro ⟨r, c, hr, hc, hb, hx, hy⟩
    rcases Nat.lt_succ_iff_lt_or_eq.mp hr with h | rfl
    · exact .inl ⟨r, c, h, hc, hb, hx, hy⟩
    · exact .inr ⟨Fin.ext hy, c, hc, hb, hx⟩
  · rintro (⟨r, c, hr, hc, hb, hx, hy⟩ | ⟨rfl, c, hc, hb, hx⟩)
    · exact ⟨r, c, by omega, hc, hb, hx, hy⟩
    · exact ⟨n, c, by omega, hc, hb, hx, rfl⟩

/-- Rows before the `n`-th do not reach the row of the `n`-th. -/
theorem not_spriteCovers_spriteRow (m : Memory) (base : Nat) (vx vy : Byte) (n : Nat) (hn : n < 32)
    (x : Fin 64) : ¬ spriteCovers m base vx vy n (spriteRow vy n) x := by
  rintro ⟨r, c, hr, -, -, -, hy⟩
  simp only [spriteRow] at hy
  omega

/-- The rows of a sprite turn over the pixels they cover, and no other; they collide exactly when one of
those pixels was on. -/
theorem drawRows_spec (m : Memory) (base : Nat) (d : Display × Bool) (vx vy : Byte) (n : Nat)
    (hn : n ≤ 32) :
    (∀ y x, spriteCovers m base vx vy n y x →
      pixel (drawRows m base d vx vy n).1 y x = !pixel d.1 y x) ∧
    (∀ y x, ¬ spriteCovers m base vx vy n y x →
      pixel (drawRows m base d vx vy n).1 y x = pixel d.1 y x) ∧
    ((drawRows m base d vx vy n).2 = true ↔
      d.2 = true ∨ ∃ y x, spriteCovers m base vx vy n y x ∧ pixel d.1 y x = true) := by
  induction n with
  | zero => exact ⟨fun _ _ ⟨r, _, hr, _⟩ => absurd hr (by omega), fun _ _ _ => rfl,
      ⟨.inl, fun h => h.elim id fun ⟨_, _, ⟨r, _, hr, _⟩, _⟩ => absurd hr (by omega)⟩⟩
  | succ n ih =>
    obtain ⟨ih1, ih2, ih3⟩ := ih (by omega)
    have hnew := not_spriteCovers_spriteRow m base vx vy n (by omega)
    obtain ⟨hc1, hc2, hc3⟩ := drawCols_spec (drawRows m base d vx vy n) vx (spriteRow vy n)
      (m.read (base + n)) 8 (by omega)
    simp only [drawRows, spriteCovers_succ]
    refine ⟨fun y x h => ?_, fun y x h => ?_, ?_⟩
    · by_cases hy : y = spriteRow vy n ∧ colsCover vx (m.read (base + n)) 8 x
      · rw [hc1 y x hy, ih2 y x (hy.1 ▸ hnew x)]
      · rw [hc2 y x hy, ih1 y x (h.resolve_right hy)]
    · rw [hc2 y x (fun h' => h (.inr h')), ih2 y x (fun h' => h (.inl h'))]
    · rw [hc3, ih3]
      constructor
      · rintro ((h | ⟨y, x, h, h'⟩) | ⟨x, h, h'⟩)
        · exact .inl h
        · exact .inr ⟨y, x, .inl h, h'⟩
        · rw [ih2 _ x (hnew x)] at h'
          exact .inr ⟨_, x, .inr ⟨rfl, h⟩, h'⟩
      · rintro (h | ⟨y, x, h | ⟨rfl, h⟩, h'⟩)
        · exact .inl (.inl h)
        · exact .inl (.inr ⟨y, x, h, h'⟩)
        · exact .inr ⟨x, h, by rw [ih2 _ x (hnew x)]; exact h'⟩

/-- Two displays with the same pixels are the same. -/
theorem display_ext (fb fb' : Display) (h : ∀ y x, pixel fb y x = pixel fb' y x) : fb = fb' := by
  refine Vector.ext fun y hy => Vector.ext fun x hx => ?_
  simpa [pixel, Vector.get_eq_getElem] using h ⟨y, hy⟩ ⟨x, hx⟩

end Sys2Proof.Machine
end

