-- ==== Sys2Proof/Laws/Exec.lean ====
section
/-! SUPPORT. The six meanings that branch, each with its two cases: the fault the rule names, under the
rule's condition, or the effect. Every other meaning is its one effect by definition. -/

namespace Sys2Proof.Machine

theorem execRet_cases (s : State) :
    (s.sp.val = 0 ∧ execRet s = .next (s.execFault .stackUnderflow .ret)) ∨
    (∃ h : 0 < s.sp.val, execRet s =
      .next ((s.setCalls s.stack ⟨s.sp.val - 1, by omega⟩).setPc (s.stack[s.sp.val - 1]'(by omega)))) := by
  unfold execRet
  rcases s.pop_cases with ⟨h, e⟩ | ⟨h, e⟩
  · exact .inl ⟨h, by rw [e]⟩
  · exact .inr ⟨h, by rw [e]⟩

theorem execCall_cases (nnn : BitVec 12) (s : State) :
    (s.sp.val = 16 ∧ execCall nnn s = .next (s.execFault .stackOverflow (.call nnn))) ∨
    (∃ h : s.sp.val < 16, execCall nnn s =
      .next ((s.setCalls (s.stack.set s.sp.val s.pc h) ⟨s.sp.val + 1, by omega⟩).setPc (address nnn))) := by
  unfold execCall
  rcases s.push_cases s.pc with ⟨h, e⟩ | ⟨h, e⟩
  · exact .inl ⟨h, by rw [e]⟩
  · exact .inr ⟨h, by rw [e]⟩

theorem execLdB_cases (x : Reg) (s : State) :
    (0xFFF < s.dataAddr 2 ∧ execLdB x s = .next (s.execFault .dataBounds (.ldB x))) ∨
    (s.dataAddr 2 ≤ 0xFFF ∧
      execLdB x s = .next (s.setMem (s.mem.writeBytes (s.dataAddr 0) (decimalDigits (s.getV x))))) := by
  unfold execLdB
  by_cases h : 0xFFF < s.dataAddr 2
  · exact .inl ⟨h, by simp [h]⟩
  · exact .inr ⟨by omega, by simp [h]⟩

theorem execStRegs_cases (x : Reg) (s : State) :
    (0xFFF < s.dataAddr x.val ∧ execStRegs x s = .next (s.execFault .dataBounds (.stRegs x))) ∨
    (s.dataAddr x.val ≤ 0xFFF ∧ execStRegs x s =
      .next ((s.setMem (s.mem.writeBytes (s.dataAddr 0) (s.regsUpTo x))).bumpI s.q.si x)) := by
  unfold execStRegs
  by_cases h : 0xFFF < s.dataAddr x.val
  · exact .inl ⟨h, by simp [h]⟩
  · exact .inr ⟨by omega, by simp [h]⟩

theorem execLdRegs_cases (x : Reg) (s : State) :
    (0xFFF < s.dataAddr x.val ∧ execLdRegs x s = .next (s.execFault .dataBounds (.ldRegs x))) ∨
    (s.dataAddr x.val ≤ 0xFFF ∧ execLdRegs x s =
      .next ((s.setRegs (loadRegs s.mem (s.dataAddr 0) s.v (x.val + 1))).bumpI s.q.li x)) := by
  unfold execLdRegs
  by_cases h : 0xFFF < s.dataAddr x.val
  · exact .inl ⟨h, by simp [h]⟩
  · exact .inr ⟨by omega, by simp [h]⟩

theorem execDrw_cases (x y : Reg) (n : Fin 16) (s : State) :
    (1 ≤ n.val ∧ 0xFFF < s.dataAddr (n.val - 1) ∧
      execDrw x y n s = .next (s.execFault .dataBounds (.drw x y n))) ∨
    ((n.val = 0 ∨ s.dataAddr (n.val - 1) ≤ 0xFFF) ∧ execDrw x y n s =
      .next ((s.setV regF (flagByte
          (drawRows s.mem (s.dataAddr 0) (s.fb, false) (s.getV x) (s.getV y) n.val).2)).present
        (drawRows s.mem (s.dataAddr 0) (s.fb, false) (s.getV x) (s.getV y) n.val).1 true)) := by
  unfold execDrw
  by_cases h : 1 ≤ n.val ∧ 0xFFF < s.dataAddr (n.val - 1)
  · exact .inl ⟨h.1, h.2, by simp [h]⟩
  · exact .inr ⟨by omega, by simp [h]⟩

end Sys2Proof.Machine
end

