-- ==== Sys2Proof/Laws/PerInstr.lean ====
section
/-! SUPPORT. The family EncodesRow: the word of a documented instruction matches a row of the opcode map,
and that row rebuilds the instruction from it; UNDEF's word is the word it holds. -/

namespace Sys2Proof.Laws.EncodesRow

/-- A row of the opcode map matches the instruction's word and rebuilds the instruction, or the
instruction is UNDEF of its own word (30_encoding.md R95, R96, R99). -/
def Statement (i : Instr) : Prop :=
  (∃ r ∈ opcodeMap, r.matches (encode i) = true ∧ r.build (encode i) = i) ∨ i = .undef (encode i)

theorem row_low (k : Nat) (hk : k < opcodeRowsLow.length) : opcodeRowsLow[k] ∈ opcodeMap :=
  List.mem_append_left _ (List.mem_append_left _ (List.mem_append_left _ (List.getElem_mem hk)))

theorem row_arith (k : Nat) (hk : k < opcodeRowsArith.length) : opcodeRowsArith[k] ∈ opcodeMap :=
  List.mem_append_left _ (List.mem_append_left _ (List.mem_append_right _ (List.getElem_mem hk)))

theorem row_high (k : Nat) (hk : k < opcodeRowsHigh.length) : opcodeRowsHigh[k] ∈ opcodeMap :=
  List.mem_append_left _ (List.mem_append_right _ (List.getElem_mem hk))

theorem row_f (k : Nat) (hk : k < opcodeRowsF.length) : opcodeRowsF[k] ∈ opcodeMap :=
  List.mem_append_right _ (List.getElem_mem hk)

/-! ### A word form matches its row's digits -/

theorem family_matches (w v : Word) (h : w.extractLsb' 12 4 ++ 0#12 = v) : (w &&& 0xF000#16 == v) = true := by
  rw [and_family, h, beq_self_eq_true]

theorem family_last_matches (w v : Word) (h : w.extractLsb' 12 4 ++ (0#8 ++ w.extractLsb' 0 4) = v) :
    (w &&& 0xF00F#16 == v) = true := by
  rw [and_family_last, h, beq_self_eq_true]

theorem family_byte_matches (w v : Word) (h : w.extractLsb' 12 4 ++ (0#4 ++ w.extractLsb' 0 8) = v) :
    (w &&& 0xF0FF#16 == v) = true := by
  rw [and_family_byte, h, beq_self_eq_true]

/-! ### One lemma per instruction -/

theorem cls : Statement (.cls) :=
  .inl ⟨_, row_low 0 (by decide), 
    by decide, rfl⟩

theorem ret : Statement (.ret) :=
  .inl ⟨_, row_low 1 (by decide), 
    by decide, rfl⟩

theorem jp (nnn : BitVec 12) : Statement (.jp nnn) :=
  .inl ⟨_, row_low 2 (by decide), 
    family_matches _ _ (by simp [encode, opcodeRowsLow]), by simp [opcodeRowsLow, encode, fieldNNN]⟩

theorem call (nnn : BitVec 12) : Statement (.call nnn) :=
  .inl ⟨_, row_low 3 (by decide), 
    family_matches _ _ (by simp [encode, opcodeRowsLow]), by simp [opcodeRowsLow, encode, fieldNNN]⟩

theorem seImm (x : Reg) (nn : Byte) : Statement (.seImm x nn) :=
  .inl ⟨_, row_low 4 (by decide), 
    family_matches _ _ (by simp [encode, opcodeRowsLow]), by simp [opcodeRowsLow, encode, fieldX, fieldNN]⟩

theorem sneImm (x : Reg) (nn : Byte) : Statement (.sneImm x nn) :=
  .inl ⟨_, row_low 5 (by decide), 
    family_matches _ _ (by simp [encode, opcodeRowsLow]), by simp [opcodeRowsLow, encode, fieldX, fieldNN]⟩

theorem seReg (x : Reg) (y : Reg) : Statement (.seReg x y) :=
  .inl ⟨_, row_low 6 (by decide), 
    family_last_matches _ _ (by simp [encode, opcodeRowsLow]), by simp [opcodeRowsLow, encode, fieldX, fieldY]⟩

theorem ldImm (x : Reg) (nn : Byte) : Statement (.ldImm x nn) :=
  .inl ⟨_, row_low 7 (by decide), 
    family_matches _ _ (by simp [encode, opcodeRowsLow]), by simp [opcodeRowsLow, encode, fieldX, fieldNN]⟩

theorem addImm (x : Reg) (nn : Byte) : Statement (.addImm x nn) :=
  .inl ⟨_, row_low 8 (by decide), 
    family_matches _ _ (by simp [encode, opcodeRowsLow]), by simp [opcodeRowsLow, encode, fieldX, fieldNN]⟩

theorem ldReg (x : Reg) (y : Reg) : Statement (.ldReg x y) :=
  .inl ⟨_, row_arith 0 (by decide), 
    family_last_matches _ _ (by simp [encode, opcodeRowsArith]), by simp [opcodeRowsArith, encode, fieldX, fieldY]⟩

theorem orReg (x : Reg) (y : Reg) : Statement (.orReg x y) :=
  .inl ⟨_, row_arith 1 (by decide), 
    family_last_matches _ _ (by simp [encode, opcodeRowsArith]), by simp [opcodeRowsArith, encode, fieldX, fieldY]⟩

theorem andReg (x : Reg) (y : Reg) : Statement (.andReg x y) :=
  .inl ⟨_, row_arith 2 (by decide), 
    family_last_matches _ _ (by simp [encode, opcodeRowsArith]), by simp [opcodeRowsArith, encode, fieldX, fieldY]⟩

theorem xorReg (x : Reg) (y : Reg) : Statement (.xorReg x y) :=
  .inl ⟨_, row_arith 3 (by decide), 
    family_last_matches _ _ (by simp [encode, opcodeRowsArith]), by simp [opcodeRowsArith, encode, fieldX, fieldY]⟩

theorem addReg (x : Reg) (y : Reg) : Statement (.addReg x y) :=
  .inl ⟨_, row_arith 4 (by decide), 
    family_last_matches _ _ (by simp [encode, opcodeRowsArith]), by simp [opcodeRowsArith, encode, fieldX, fieldY]⟩

theorem subReg (x : Reg) (y : Reg) : Statement (.subReg x y) :=
  .inl ⟨_, row_arith 5 (by decide), 
    family_last_matches _ _ (by simp [encode, opcodeRowsArith]), by simp [opcodeRowsArith, encode, fieldX, fieldY]⟩

theorem shr (x : Reg) (y : Reg) : Statement (.shr x y) :=
  .inl ⟨_, row_arith 6 (by decide), 
    family_last_matches _ _ (by simp [encode, opcodeRowsArith]), by simp [opcodeRowsArith, encode, fieldX, fieldY]⟩

theorem subnReg (x : Reg) (y : Reg) : Statement (.subnReg x y) :=
  .inl ⟨_, row_arith 7 (by decide), 
    family_last_matches _ _ (by simp [encode, opcodeRowsArith]), by simp [opcodeRowsArith, encode, fieldX, fieldY]⟩

theorem shl (x : Reg) (y : Reg) : Statement (.shl x y) :=
  .inl ⟨_, row_arith 8 (by decide), 
    family_last_matches _ _ (by simp [encode, opcodeRowsArith]), by simp [opcodeRowsArith, encode, fieldX, fieldY]⟩

theorem sneReg (x : Reg) (y : Reg) : Statement (.sneReg x y) :=
  .inl ⟨_, row_arith 9 (by decide), 
    family_last_matches _ _ (by simp [encode, opcodeRowsArith]), by simp [opcodeRowsArith, encode, fieldX, fieldY]⟩

theorem ldI (nnn : BitVec 12) : Statement (.ldI nnn) :=
  .inl ⟨_, row_high 0 (by decide), 
    family_matches _ _ (by simp [encode, opcodeRowsHigh]), by simp [opcodeRowsHigh, encode, fieldNNN]⟩

theorem jpV0 (nnn : BitVec 12) : Statement (.jpV0 nnn) :=
  .inl ⟨_, row_high 1 (by decide), 
    family_matches _ _ (by simp [encode, opcodeRowsHigh]), by simp [opcodeRowsHigh, encode, fieldNNN]⟩

theorem rnd (x : Reg) (nn : Byte) : Statement (.rnd x nn) :=
  .inl ⟨_, row_high 2 (by decide), 
    family_matches _ _ (by simp [encode, opcodeRowsHigh]), by simp [opcodeRowsHigh, encode, fieldX, fieldNN]⟩

theorem drw (x : Reg) (y : Reg) (n : Fin 16) : Statement (.drw x y n) :=
  .inl ⟨_, row_high 3 (by decide), 
    family_matches _ _ (by simp [encode, opcodeRowsHigh]), by simp [opcodeRowsHigh, encode, fieldX, fieldY, fieldN]⟩

theorem skp (x : Reg) : Statement (.skp x) :=
  .inl ⟨_, row_high 4 (by decide), 
    family_byte_matches _ _ (by simp [encode, opcodeRowsHigh]), by simp [opcodeRowsHigh, encode, fieldX]⟩

theorem sknp (x : Reg) : Statement (.sknp x) :=
  .inl ⟨_, row_high 5 (by decide), 
    family_byte_matches _ _ (by simp [encode, opcodeRowsHigh]), by simp [opcodeRowsHigh, encode, fieldX]⟩

theorem ldVxDt (x : Reg) : Statement (.ldVxDt x) :=
  .inl ⟨_, row_f 0 (by decide), 
    family_byte_matches _ _ (by simp [encode, opcodeRowsF]), by simp [opcodeRowsF, encode, fieldX]⟩

theorem ldVxK (x : Reg) : Statement (.ldVxK x) :=
  .inl ⟨_, row_f 1 (by decide), 
    family_byte_matches _ _ (by simp [encode, opcodeRowsF]), by simp [opcodeRowsF, encode, fieldX]⟩

theorem ldDtVx (x : Reg) : Statement (.ldDtVx x) :=
  .inl ⟨_, row_f 2 (by decide), 
    family_byte_matches _ _ (by simp [encode, opcodeRowsF]), by simp [opcodeRowsF, encode, fieldX]⟩

theorem ldStVx (x : Reg) : Statement (.ldStVx x) :=
  .inl ⟨_, row_f 3 (by decide), 
    family_byte_matches _ _ (by simp [encode, opcodeRowsF]), by simp [opcodeRowsF, encode, fieldX]⟩

theorem addI (x : Reg) : Statement (.addI x) :=
  .inl ⟨_, row_f 4 (by decide), 
    family_byte_matches _ _ (by simp [encode, opcodeRowsF]), by simp [opcodeRowsF, encode, fieldX]⟩

theorem ldF (x : Reg) : Statement (.ldF x) :=
  .inl ⟨_, row_f 5 (by decide), 
    family_byte_matches _ _ (by simp [encode, opcodeRowsF]), by simp [opcodeRowsF, encode, fieldX]⟩

theorem ldB (x : Reg) : Statement (.ldB x) :=
  .inl ⟨_, row_f 6 (by decide), 
    family_byte_matches _ _ (by simp [encode, opcodeRowsF]), by simp [opcodeRowsF, encode, fieldX]⟩

theorem stRegs (x : Reg) : Statement (.stRegs x) :=
  .inl ⟨_, row_f 7 (by decide), 
    family_byte_matches _ _ (by simp [encode, opcodeRowsF]), by simp [opcodeRowsF, encode, fieldX]⟩

theorem ldRegs (x : Reg) : Statement (.ldRegs x) :=
  .inl ⟨_, row_f 8 (by decide), 
    family_byte_matches _ _ (by simp [encode, opcodeRowsF]), by simp [opcodeRowsF, encode, fieldX]⟩

theorem undef (w : Word) : Statement (.undef w) := .inr rfl

/-- The family holds of every instruction. -/
theorem all (i : Instr) : Statement i := by
  cases i with
  | cls => exact cls
  | ret => exact ret
  | jp nnn => exact jp nnn
  | call nnn => exact call nnn
  | seImm x nn => exact seImm x nn
  | sneImm x nn => exact sneImm x nn
  | seReg x y => exact seReg x y
  | ldImm x nn => exact ldImm x nn
  | addImm x nn => exact addImm x nn
  | ldReg x y => exact ldReg x y
  | orReg x y => exact orReg x y
  | andReg x y => exact andReg x y
  | xorReg x y => exact xorReg x y
  | addReg x y => exact addReg x y
  | subReg x y => exact subReg x y
  | shr x y => exact shr x y
  | subnReg x y => exact subnReg x y
  | shl x y => exact shl x y
  | sneReg x y => exact sneReg x y
  | ldI nnn => exact ldI nnn
  | jpV0 nnn => exact jpV0 nnn
  | rnd x nn => exact rnd x nn
  | drw x y n => exact drw x y n
  | skp x => exact skp x
  | sknp x => exact sknp x
  | ldVxDt x => exact ldVxDt x
  | ldVxK x => exact ldVxK x
  | ldDtVx x => exact ldDtVx x
  | ldStVx x => exact ldStVx x
  | addI x => exact addI x
  | ldF x => exact ldF x
  | ldB x => exact ldB x
  | stRegs x => exact stRegs x
  | ldRegs x => exact ldRegs x
  | undef w => exact undef w

end Sys2Proof.Laws.EncodesRow
end

