-- ==== Sys2Proof/Laws/Step.lean ====
section
/-! SUPPORT. The cases of one step: which event is applied, and how a Step begins. -/

namespace Sys2Proof.Machine

theorem step_no_event (s : State) (h : s.pending = []) : step s = instrStep s := by
  simp [step, State.nextTurn, h]

theorem step_step (s : State) (es : List HostEvent) (h : s.pending = .step :: es) :
    step s = instrStep (s.setPending es) := by
  simp [step, State.nextTurn, h]

theorem step_tick (s : State) (es : List HostEvent) (h : s.pending = .tick :: es) :
    step s = .next (s.setPending es).tick := by
  simp [step, State.nextTurn, h]

theorem step_keyDown (s : State) (k : Key) (es : List HostEvent) (h : s.pending = .keyDown k :: es) :
    step s = .next ((s.setPending es).keyDown k) := by
  simp [step, State.nextTurn, h]

theorem step_keyUp (s : State) (k : Key) (es : List HostEvent) (h : s.pending = .keyUp k :: es) :
    step s = .next ((s.setPending es).keyUp k) := by
  simp [step, State.nextTurn, h]

theorem step_presentAck (s : State) (es : List HostEvent) (h : s.pending = .presentAck :: es) :
    step s = .next (s.setPending es).presentAck := by
  simp [step, State.nextTurn, h]

theorem step_reset (s : State) (font : Font) (rom : List Byte) (q : Quirks) (es : List HostEvent)
    (h : s.pending = .reset font rom q :: es) :
    step s = if rom.length ≤ Config.romMax then .next ((s.setPending es).resetEvent font rom q)
      else .refused .romTooLong := by
  simp only [step, State.nextTurn, h]
  by_cases hl : rom.length ≤ Config.romMax <;> simp [hl]

/-- A KeyDown outside a wait sets its key (R185 d). -/
theorem State.keyDown_running (s : State) (k : Key) (h : s.wait = false) :
    s.keyDown k = s.setKey k true := by
  simp [State.keyDown, h]

/-- A KeyDown during a wait sets its key, writes its value to V[WAITX] and ends the wait (R185 c). -/
theorem State.keyDown_waiting (s : State) (k : Key) (h : s.wait = true) :
    s.keyDown k =
      ((s.setKey k true).setV s.waitX (BitVec.ofNat 8 k.val)).setWait false s.waitX := by
  simp [State.keyDown, h]

/-- A timer counts down by one, and stays at 0 (R218). -/
theorem countDown_toNat (b : Byte) : (countDown b).toNat = b.toNat - 1 := by
  unfold countDown
  split
  · rename_i h; subst h; rfl
  · rename_i h
    have h0 : b.toNat ≠ 0 := fun h' => h (BitVec.eq_of_toNat_eq h')
    have := b.isLt
    have h1 : (1 : Byte).toNat = 1 := rfl
    rw [BitVec.toNat_sub, h1]
    omega

/-- How a Step begins (R90, R185, R204, R207, R208). -/
theorem instrStep_cases (s : State) :
    (s.halted = true ∧ instrStep s = .next s) ∨
    (s.halted = false ∧ s.wait = true ∧ instrStep s = .next s) ∨
    (s.halted = false ∧ s.wait = false ∧ 0xFFE < s.pc.toNat ∧
      instrStep s = .next (s.raiseFault .fetchBounds s.pc 0)) ∨
    (s.halted = false ∧ s.wait = false ∧ s.pc.toNat ≤ 0xFFE ∧
      instrStep s = exec (decode s.fetchWord) (s.setPc (s.pc + 2))) := by
  unfold instrStep State.beginStep State.fetchable
  cases hh : s.halted
  · cases hw : s.wait
    · by_cases hp : s.pc.toNat ≤ 0xFFE
      · exact .inr (.inr (.inr ⟨rfl, rfl, hp, by simp [hp]⟩))
      · exact .inr (.inr (.inl ⟨rfl, rfl, by omega, by simp [hp]⟩))
    · exact .inr (.inl ⟨rfl, rfl, by simp⟩)
  · exact .inl ⟨rfl, by simp⟩

end Sys2Proof.Machine
end

