-- ==== Sys2Proof/Tests/Slice0.lean ====
section
/-! SUPPORT. Tests. Every expected value is taken from 95_test_vectors.md (its part and family stand
beside the test) or from the rule named; words are written out from the patterns of 30_encoding.md R96.
Last, for each statement with hypotheses, states and operands that meet them, clause by clause, at the
ends of their ranges. -/

namespace Sys2Proof.Tests

open Sys2Proof Sys2Proof.Machine

/-! ### Helpers -/

/-- The reset state with the word placed at 0x200 has run one step, and the state after it meets `p`. -/
def runs (w : Nat) (s : State) (p : State → Bool) : Bool :=
  match step (s.withFetchWord 16 w) with
  | .next t => p t
  | .fault _ => false
  | .refused _ => false

/-- A meaning answered a next state that meets `p`. -/
def meets (o : Host.Outcome State Fault Refusal) (p : State → Bool) : Bool :=
  match o with
  | .next t => p t
  | .fault _ => false
  | .refused _ => false

/-- The reset state with some registers set. -/
def regs (l : List (Reg × Byte)) : State := l.foldl (fun s e => s.setV e.1 e.2) State.reset

/-- The reset state with I set. -/
def atI (w : Word) : State := State.reset.setI w

/-- The reset state with PC set. -/
def atPc (w : Word) : State := State.reset.setPc w

/-- The reset state with quirk flags (rs, ls, jo, si, li). -/
def quirks (rs ls jo si li : Bool) (s : State) : State :=
  { s with q := { rs := rs, ls := ls, jo := jo, si := si, li := li } }

/-- The reset state with `n` return addresses 0x202 on the stack. -/
def calls (n : Fin 17) : State := State.reset.setCalls (Vector.replicate 16 0x202) n

/-- The reset state with host events pending. -/
def pend (es : List HostEvent) : State := State.reset.setPending es

/-- The halted state that a StackUnderflow at 0x200 leaves. -/
def haltedState : State := (State.reset.setPc 0x202).raiseFault .stackUnderflow 0x200 0x00EE

/-- The waiting state that F50A at 0x200 leaves. -/
def waitingState : State := (State.reset.setPc 0x202).setWait true 5

/-- The state parked on 1200 at 0x200. -/
def parkedState : State := State.reset.setMem [(0x200, 0x12)]

/-! ### Well-formed instructions (R99) -/

theorem test_wf_refuses_documented_words :
    Instr.wf (.undef 0x00E0) = false ∧ Instr.wf (.undef 0x1200) = false ∧
    Instr.wf (.undef 0x5120) = false ∧ Instr.wf (.undef 0x800E) = false ∧
    Instr.wf (.undef 0x9120) = false ∧ Instr.wf (.undef 0xE09E) = false ∧
    Instr.wf (.undef 0xF065) = false := by decide

theorem test_wf_accepts_undefined_words :
    Instr.wf (.undef 0x0000) = true ∧ Instr.wf (.undef 0x5121) = true ∧
    Instr.wf (.undef 0x800F) = true ∧ Instr.wf (.undef 0x9121) = true ∧
    Instr.wf (.undef 0xE0A0) = true ∧ Instr.wf (.undef 0xFFFF) = true ∧
    Instr.wf (.jp 0xFFF) = true := by decide

/-! ### Decoding: a word of every row, from its pattern (R96; listings of part 3) -/

theorem test_decode_family_0_to_7 :
    decode 0x00E0 = .cls ∧ decode 0x00EE = .ret ∧ decode 0x1208 = .jp 0x208 ∧
    decode 0x2210 = .call 0x210 ∧ decode 0x3A05 = .seImm 10 0x05 ∧ decode 0x4A05 = .sneImm 10 0x05 ∧
    decode 0x5120 = .seReg 1 2 ∧ decode 0x60EA = .ldImm 0 0xEA ∧ decode 0x71FF = .addImm 1 0xFF := by
  decide

theorem test_decode_family_8_and_9 :
    decode 0x8120 = .ldReg 1 2 ∧ decode 0x8121 = .orReg 1 2 ∧ decode 0x8122 = .andReg 1 2 ∧
    decode 0x8F13 = .xorReg 15 1 ∧ decode 0x8014 = .addReg 0 1 ∧ decode 0x81F5 = .subReg 1 15 ∧
    decode 0x8126 = .shr 1 2 ∧ decode 0x8FE7 = .subnReg 15 14 ∧ decode 0x832E = .shl 3 2 ∧
    decode 0x9120 = .sneReg 1 2 := by decide

theorem test_decode_family_A_to_E :
    decode 0xA050 = .ldI 0x050 ∧ decode 0xB206 = .jpV0 0x206 ∧ decode 0xC10F = .rnd 1 0x0F ∧
    decode 0xD015 = .drw 0 1 5 ∧ decode 0xE19E = .skp 1 ∧ decode 0xE1A1 = .sknp 1 := by decide

theorem test_decode_family_F :
    decode 0xF307 = .ldVxDt 3 ∧ decode 0xF50A = .ldVxK 5 ∧ decode 0xF215 = .ldDtVx 2 ∧
    decode 0xF418 = .ldStVx 4 ∧ decode 0xF11E = .addI 1 ∧ decode 0xF129 = .ldF 1 ∧
    decode 0xF033 = .ldB 0 ∧ decode 0xF255 = .stRegs 2 ∧ decode 0xF165 = .ldRegs 1 := by decide

/-- Undefined words of part 2, one or more of each family of R99. -/
theorem test_decode_undefined :
    decode 0x0000 = .undef 0x0000 ∧ decode 0x0123 = .undef 0x0123 ∧ decode 0x5121 = .undef 0x5121 ∧
    decode 0x8008 = .undef 0x8008 ∧ decode 0x9121 = .undef 0x9121 ∧ decode 0xE09F = .undef 0xE09F ∧
    decode 0xF075 = .undef 0xF075 := by decide

theorem test_decodeTableWord :
    decodeTableWord 16 0xD015 = some (.drw 0 1 5) ∧ decodeTableWord 16 0x00EE = some .ret ∧
    decodeTableWord 24 0xD015 = none := by decide

/-! ### Family 0, 1, 2, B -/

theorem test_cls : meets (exec .cls (State.reset.present (setPixel blankDisplay 31 63 true) true))
    (fun t => !pixel t.fb 31 63 && !t.dirty && t.frameEvents == 2) = true := by decide

theorem test_ret_pops : runs 0x00EE
    { State.reset with sp := 2, stack := State.reset.stack.set 1 0x456 }
    (fun t => t.pc == 0x456 && t.sp.val == 1 && t.stack[1] == 0x456) = true := by decide

theorem test_ret_underflow : runs 0x00EE State.reset
    (fun t => t.halted && t.fcause == 2 && t.fpc == 0x200 && t.fop == 0x00EE && t.pc == 0x202 &&
      t.sp.val == 0) = true := by decide

theorem test_undef : runs 0x0123 State.reset (fun t => t.pc == 0x202 && !t.halted) = true := by decide

theorem test_jp : runs 0x1FFF State.reset (fun t => t.pc == 0xFFF) = true := by decide

theorem test_call_pushes : runs 0x2ABC ((calls 15).setPc 0x3FE)
    (fun t => t.stack[15] == 0x400 && t.sp.val == 16 && t.pc == 0xABC) = true := by decide

theorem test_call_overflow : runs 0x2ABC ((calls 16).setPc 0x3FE)
    (fun t => t.fcause == 1 && t.fpc == 0x3FE && t.fop == 0x2ABC && t.pc == 0x400 && t.sp.val == 16) =
      true := by decide

theorem test_jpV0_quirk : runs 0xBFFF (regs [(0, 0xFF), (15, 0x01)]) (fun t => t.pc == 0x10FE) = true := by
  decide

theorem test_jpV0_no_quirk :
    runs 0xB300 (quirks true true false false false (regs [(0, 0x10), (3, 0x20)]))
      (fun t => t.pc == 0x320) = true := by decide

/-! ### Skips -/

theorem test_seImm : runs 0x3000 (atPc 0xFFE) (fun t => t.pc == 0x1002) = true := by decide

theorem test_seImm_not : runs 0x3A05 (regs [(10, 0x06)]) (fun t => t.pc == 0x202) = true := by decide

theorem test_sneImm : runs 0x4A05 (regs [(10, 0x06)]) (fun t => t.pc == 0x204) = true := by decide

theorem test_sneImm_not : runs 0x4A05 (regs [(10, 0x05)]) (fun t => t.pc == 0x202) = true := by decide

theorem test_seReg : runs 0x5120 (regs [(1, 0x33), (2, 0x33)]) (fun t => t.pc == 0x204) = true := by decide

theorem test_seReg_not : runs 0x5120 (regs [(1, 0x33), (2, 0x34)]) (fun t => t.pc == 0x202) = true := by
  decide

theorem test_sneReg : runs 0x9120 (regs [(1, 0x01), (2, 0x02)]) (fun t => t.pc == 0x204) = true := by decide

theorem test_sneReg_not : runs 0x9FF0 (regs [(15, 0x09)]) (fun t => t.pc == 0x202) = true := by decide

/-! ### Registers -/

theorem test_ldImm : runs 0x6FFF State.reset (fun t => t.getV 15 == 0xFF) = true := by decide

theorem test_addImm : runs 0x7A02 (regs [(10, 0xFF), (15, 0x55)])
    (fun t => t.getV 10 == 0x01 && t.getV 15 == 0x55) = true := by decide

theorem test_ldReg : runs 0x8120 (regs [(2, 0x7E)]) (fun t => t.getV 1 == 0x7E) = true := by decide

theorem test_orReg : runs 0x8121 (regs [(1, 0x0F), (2, 0xF0), (15, 0x55)])
    (fun t => t.getV 1 == 0xFF && t.getV 15 == 0x55) = true := by decide

theorem test_andReg : runs 0x8122 (regs [(1, 0x3C), (2, 0x0F)]) (fun t => t.getV 1 == 0x0C) = true := by
  decide

theorem test_xorReg : runs 0x8F13 (regs [(15, 0xAA), (1, 0xFF)]) (fun t => t.getV 15 == 0x55) = true := by
  decide

theorem test_addReg : runs 0x8124 (regs [(1, 0xC8), (2, 0x64)])
    (fun t => t.getV 1 == 0x2C && t.getV 15 == 0x01) = true := by decide

theorem test_addReg_vf : runs 0x8FE4 (regs [(15, 0x10), (14, 0x20)]) (fun t => t.getV 15 == 0x00) = true := by
  decide

theorem test_subReg_equal : runs 0x8125 (regs [(1, 0x07), (2, 0x07), (15, 0x55)])
    (fun t => t.getV 1 == 0x00 && t.getV 15 == 0x00) = true := by decide

theorem test_subReg_vf : runs 0x8FE5 (regs [(15, 0x10), (14, 0x03)]) (fun t => t.getV 15 == 0x0D) = true := by
  decide

theorem test_subnReg : runs 0x8127 (regs [(1, 0x05), (2, 0x03), (15, 0x55)])
    (fun t => t.getV 1 == 0xFE && t.getV 15 == 0x00) = true := by decide

theorem test_subnReg_vf : runs 0x8FE7 (regs [(15, 0x03), (14, 0x10)]) (fun t => t.getV 15 == 0x0D) = true := by
  decide

theorem test_shr_quirk : runs 0x8126 (regs [(1, 0x05), (2, 0xF3)])
    (fun t => t.getV 1 == 0x79 && t.getV 15 == 0x01 && t.getV 2 == 0xF3) = true := by decide

theorem test_shr_no_quirk :
    runs 0x81F6 (quirks false true true false false (regs [(1, 0x08), (15, 0x03)]))
      (fun t => t.getV 1 == 0x04 && t.getV 15 == 0x00) = true := by decide

theorem test_shl_quirk : runs 0x8FEE (regs [(15, 0x81), (14, 0x40)]) (fun t => t.getV 15 == 0x00) = true := by
  decide

theorem test_shl_no_quirk :
    runs 0x812E (quirks true false true false false (regs [(1, 0x05), (2, 0xF3)]))
      (fun t => t.getV 1 == 0x0A && t.getV 15 == 0x00) = true := by decide

theorem test_rnd : runs 0xC10F { State.reset with randIn := [0xA7, 0x11] }
    (fun t => t.getV 1 == 0x07 && t.randIn == [0x11]) = true := by decide

/-- C100 gives 0 whatever is drawn: the free value does not show. -/
theorem test_rnd_free_masked : ∃ t, exec (.rnd 1 0x00) State.reset = .next t ∧ t.getV 1 = 0x00 ∧ t.draws = 1 :=
  ⟨_, rfl, BitVec.and_zero, rfl⟩

/-! ### Index and memory -/

theorem test_ldI : runs 0xAFFF (atI 0x1234) (fun t => t.idx == 0x0FFF) = true := by decide

theorem test_addI : runs 0xF11E ((atI 0xFF80).setV 1 0xFF)
    (fun t => t.idx == 0x007F && t.getV 15 == 0x01) = true := by decide

theorem test_addI_vf : runs 0xFF1E ((atI 0x0FFE).setV 15 0x02)
    (fun t => t.idx == 0x1000 && t.getV 15 == 0x01) = true := by decide

theorem test_ldF : runs 0xF129 (regs [(1, 0x37)]) (fun t => t.idx == 0x0073) = true := by decide

theorem test_ldB : runs 0xF033 ((atI 0x0300).setV 0 0xEA)
    (fun t => t.mem.read 0x300 == 2 && t.mem.read 0x301 == 3 && t.mem.read 0x302 == 4 && t.idx == 0x300) =
      true := by decide

theorem test_ldB_bounds : runs 0xF133 ((atI 0x0FFE).setV 1 0xFF)
    (fun t => t.fcause == 4 && t.fpc == 0x200 && t.fop == 0xF133 && t.pc == 0x202 &&
      t.mem.read 0xFFE == 0 && t.mem.read 0xFFF == 0) = true := by decide

theorem test_stRegs : runs 0xF255
    (quirks true true true true false ((regs [(0, 0x11), (1, 0x22), (2, 0x33)]).setI 0x300))
    (fun t => t.mem.read 0x300 == 0x11 && t.mem.read 0x301 == 0x22 && t.mem.read 0x302 == 0x33 &&
      t.mem.read 0x303 == 0 && t.idx == 0x302) = true := by decide

theorem test_stRegs_bounds : runs 0xFF55 (atI 0x0FF1)
    (fun t => t.fcause == 4 && t.fop == 0xFF55 && t.idx == 0x0FF1) = true := by decide

theorem test_ldRegs : runs 0xF165
    (quirks true true true false true ((atI 0x300).setMem [(0x300, 0xAA), (0x301, 0xBB), (0x302, 0xCC)]))
    (fun t => t.getV 0 == 0xAA && t.getV 1 == 0xBB && t.getV 2 == 0 && t.idx == 0x301) = true := by decide

theorem test_ldRegs_bounds : runs 0xF365 (atI 0x0FFD)
    (fun t => t.fcause == 4 && t.fpc == 0x200 && t.fop == 0xF365) = true := by decide

/-! ### Display -/

/-- DF11 with VF = 3, V1 = 2: the column is the old VF (part 2, family D). -/
theorem test_drw_latches_vf : runs 0xDF11 (((regs [(15, 0x03), (1, 0x02)]).setI 0x300).setMem [(0x300, 0x80)])
    (fun t => pixel t.fb 2 3 && t.getV 15 == 0 && t.dirty && t.frameEvents == 1) = true := by
  decide +kernel

/-- D012 at (62, 31): both axes wrap (part 2, family D). -/
theorem test_drw_wraps : runs 0xD012
    (((regs [(0, 0x3E), (1, 0x1F)]).setI 0x300).setMem [(0x300, 0xFF), (0x301, 0x81)])
    (fun t => pixel t.fb 31 62 && pixel t.fb 31 63 && pixel t.fb 31 0 && pixel t.fb 31 5 && !pixel t.fb 31 6 &&
      pixel t.fb 0 62 && pixel t.fb 0 5 && !pixel t.fb 0 0 && t.getV 15 == 0) = true := by
  decide +kernel

/-! ### Keys, timers, events -/

theorem test_skp : runs 0xE09E ((regs [(0, 0x0F)]).setKey 15 true) (fun t => t.pc == 0x204) = true := by decide

theorem test_skp_no_such_key : runs 0xE09E ((regs [(0, 0x1F)]).setKey 15 true)
    (fun t => t.pc == 0x202) = true := by decide

theorem test_sknp : runs 0xE1A1 ((regs [(1, 0x05)]).setKey 5 true) (fun t => t.pc == 0x202) = true := by decide

theorem test_sknp_no_such_key : runs 0xE0A1 ((regs [(0, 0x1F)]).setKey 15 true)
    (fun t => t.pc == 0x204) = true := by decide

theorem test_ldVxDt : runs 0xF307 (State.reset.setDt 0x2A) (fun t => t.getV 3 == 0x2A && t.dt == 0x2A) = true := by
  decide

theorem test_ldDtVx : runs 0xF215 (regs [(2, 0x03)]) (fun t => t.dt == 0x03 && t.st == 0) = true := by decide

theorem test_ldStVx : runs 0xF418 (regs [(4, 0x02)]) (fun t => t.st == 0x02 && t.soundOn && t.dt == 0) = true := by
  decide

theorem test_ldVxK : runs 0xF50A (regs [(5, 0x77)])
    (fun t => t.wait && t.waitX == 5 && t.pc == 0x202 && t.getV 5 == 0x77 && t.stepResult == .waiting) = true := by
  decide

theorem test_keyDown_ends_wait : meets (step (waitingState.setPending [.keyDown 0xB]))
    (fun t => t.getV 5 == 0x0B && !t.wait && t.getKey 0xB && t.pc == 0x202) = true := by decide

theorem test_tick_halted : meets (step ((haltedState.setSt 1).setPending [.tick]))
    (fun t => t.st == 0 && !t.soundOn && t.dt == 0 && t.halted) = true := by decide

theorem test_fetchBounds : meets (step (atPc 0x10FE))
    (fun t => t.fcause == 3 && t.fpc == 0x10FE && t.fop == 0 && t.pc == 0x10FE) = true := by decide

/-- An odd PC fetches at an odd address (1201's vector, part 2). -/
theorem test_odd_fetch : meets (step ((atPc 0x201).setMem [(0x201, 0x60), (0x202, 0x07)]))
    (fun t => t.getV 0 == 0x07 && t.pc == 0x203) = true := by decide

/-- P5's ROM after the Reset event: the first Step is 2200. -/
theorem test_reset_event : meets (step (haltedState.setPending
      [.reset Config.defaultFont [0x22, 0x00] Config.defaultQuirks]))
    (fun t => t.fetchWord == 0x2200 && t.pc == 0x200 && !t.halted && t.fcause == 0 && t.fpc == 0 &&
      t.fop == 0) = true := by decide +kernel

/-! ### Each statement's hypotheses are met -/

theorem test_meets_DecodeSelectsTheOneMatchingRow :
    (∀ r ∈ opcodeMap, r.matches r.val = true) ∧ (∀ r ∈ opcodeMap, r.matches 0x0000 = false) ∧
    (∀ r ∈ opcodeMap, r.matches 0xFFFF = false) := by decide

theorem test_meets_OpcodeMapRowByRow_low :
    0x00E0#16 &&& 0xFFFF = 0x00E0 ∧ 0x00EE#16 &&& 0xFFFF = 0x00EE ∧ 0x1FFF#16 &&& 0xF000 = 0x1000 ∧
    0x2FFF#16 &&& 0xF000 = 0x2000 ∧ 0x3FFF#16 &&& 0xF000 = 0x3000 ∧ 0x4FFF#16 &&& 0xF000 = 0x4000 ∧
    0x5FF0#16 &&& 0xF00F = 0x5000 ∧ 0x6FFF#16 &&& 0xF000 = 0x6000 ∧ 0x7FFF#16 &&& 0xF000 = 0x7000 ∧
    0x8FF0#16 &&& 0xF00F = 0x8000 ∧ 0x8FF1#16 &&& 0xF00F = 0x8001 ∧ 0x8FF2#16 &&& 0xF00F = 0x8002 ∧
    0x8FF3#16 &&& 0xF00F = 0x8003 ∧ 0x8FF4#16 &&& 0xF00F = 0x8004 ∧ 0x8FF5#16 &&& 0xF00F = 0x8005 ∧
    0x8FF6#16 &&& 0xF00F = 0x8006 ∧ 0x8FF7#16 &&& 0xF00F = 0x8007 ∧ 0x8FFE#16 &&& 0xF00F = 0x800E := by
  decide

theorem test_meets_OpcodeMapRowByRow_high :
    0x9FF0#16 &&& 0xF00F = 0x9000 ∧ 0xAFFF#16 &&& 0xF000 = 0xA000 ∧ 0xBFFF#16 &&& 0xF000 = 0xB000 ∧
    0xCFFF#16 &&& 0xF000 = 0xC000 ∧ 0xDFFF#16 &&& 0xF000 = 0xD000 ∧ 0xEF9E#16 &&& 0xF0FF = 0xE09E ∧
    0xEFA1#16 &&& 0xF0FF = 0xE0A1 ∧ 0xFF07#16 &&& 0xF0FF = 0xF007 ∧ 0xFF0A#16 &&& 0xF0FF = 0xF00A ∧
    0xFF15#16 &&& 0xF0FF = 0xF015 ∧ 0xFF18#16 &&& 0xF0FF = 0xF018 ∧ 0xFF1E#16 &&& 0xF0FF = 0xF01E ∧
    0xFF29#16 &&& 0xF0FF = 0xF029 ∧ 0xFF33#16 &&& 0xF0FF = 0xF033 ∧ 0xFF55#16 &&& 0xF0FF = 0xF055 ∧
    0xFF65#16 &&& 0xF0FF = 0xF065 := by decide

theorem test_meets_UndefinedWordsAreNoOperations :
    isUndefWord 0x0000 = true ∧ isUndefWord 0xFFFF = true ∧ isUndefWord 0x00E0 = false := by decide

theorem test_meets_DecodeOfEncode :
    Instr.wf (.drw 15 15 15) = true ∧ Instr.wf (.call 0xFFF) = true ∧ Instr.wf (.undef 0x0FFF) = true := by
  decide

theorem test_meets_BytesDecodeBigEndian :
    Instr.wf (.ldRegs 15) = true ∧ ([] : List Byte).length < 2 ∧ ([0x12] : List Byte).length < 2 := by decide

theorem test_meets_CanonicalMemoriesAreEqualWhenReadsAre :
    Memory.wf [(0x000, 0x01), (0xFFF, 0x02)] = true ∧ Memory.wf [(0x050, 0xF0)] = false ∧
    Memory.wf [(0x1000, 0x01)] = false := by decide

theorem test_meets_StoredBytesAreFetched :
    ((1 : Reg).val = (0 : Reg).val + 1 ∧ (1 : Reg).val ≤ (1 : Reg).val ∧ (atI 0xFFE).idx.toNat + 1 ≤ 0xFFF) ∧
    ∃ t, exec (.stRegs 1) (atI 0xFFE) = .next t := ⟨by decide, _, rfl⟩

theorem test_meets_StepRunsDecodedInstruction :
    ((atPc 0xFFE).pending = [] ∧ (atPc 0xFFE).halted = false ∧ (atPc 0xFFE).wait = false ∧
      (atPc 0xFFE).pc.toNat ≤ 0xFFE) ∧
    ((atPc 0xFFF).pending = [] ∧ (atPc 0xFFF).halted = false ∧ (atPc 0xFFF).wait = false ∧
      0xFFE < (atPc 0xFFF).pc.toNat) := by decide

theorem test_meets_StepEventIsAStep :
    (pend [.step, .tick]).pending = .step :: [.tick] ∧
    ∃ t, step { pend [.step, .tick] with pending := [] } = .next t := ⟨rfl, _, rfl⟩

theorem test_meets_StepResults :
    (haltedState.pending = [] ∧ haltedState.halted = true) ∧
    (waitingState.pending = [] ∧ waitingState.halted = false ∧ waitingState.wait = true) ∧
    (meets (step (atPc 0xFFF)) (fun t => t.halted) = true) ∧
    (decode (State.reset.setMem [(0x200, 0xF5), (0x201, 0x0A)]).fetchWord = .ldVxK 5) ∧
    (decode State.reset.fetchWord = .undef 0x0000 ∧ meets (step State.reset) (fun t => !t.halted) = true) := by
  decide

theorem test_meets_TickCountsDown : (pend [.tick, .step]).pending = .tick :: [.step] := rfl

theorem test_meets_TimersRunOutAfterNTicks :
    (pend [.tick, .tick, .step]).pending = List.replicate 2 .tick ++ [.step] := rfl

theorem test_meets_KeyEvents :
    ((pend [.keyDown 15]).pending = .keyDown 15 :: [] ∧ (pend [.keyDown 15]).wait = false) ∧
    ((waitingState.setPending [.keyDown 0]).pending = .keyDown 0 :: [] ∧
      (waitingState.setPending [.keyDown 0]).wait = true) ∧
    (pend [.keyUp 15]).pending = .keyUp 15 :: [] := by decide

theorem test_meets_WaitingMachine :
    (waitingState.halted = false ∧ waitingState.wait = true ∧ waitingState.pending = []) ∧
    (waitingState.setPending [.step]).pending = .step :: [] ∧
    (waitingState.setPending [.tick]).pending = .tick :: [] ∧
    (waitingState.setPending [.keyDown 3, .keyDown 4]).pending = .keyDown 3 :: .keyDown 4 :: [] ∧
    ((pend [.keyDown 4]).wait = false ∧ (pend [.keyDown 4]).pending = .keyDown 4 :: []) ∧
    (waitingState.setPending [.keyUp 3]).pending = .keyUp 3 :: [] ∧
    ((waitingState.setPending [.reset Config.defaultFont [] Config.defaultQuirks]).pending =
      .reset Config.defaultFont [] Config.defaultQuirks :: [] ∧ ([] : List Byte).length ≤ 3584) ∧
    (waitingState.setPending [.presentAck]).pending = .presentAck :: [] := by
  refine ⟨⟨rfl, rfl, rfl⟩, rfl, rfl, rfl, ⟨rfl, rfl⟩, rfl, ⟨rfl, by decide⟩, rfl⟩

theorem test_meets_HaltedMachine :
    (haltedState.halted = true ∧ haltedState.wait = false ∧ haltedState.pending = []) ∧
    (haltedState.setPending [.step]).pending = .step :: [] ∧
    (haltedState.setPending [.tick]).pending = .tick :: [] ∧
    (haltedState.setPending [.keyDown 0]).pending = .keyDown 0 :: [] ∧
    (haltedState.setPending [.keyUp 15]).pending = .keyUp 15 :: [] ∧
    (haltedState.setPending [.presentAck]).pending = .presentAck :: [] ∧
    (haltedState.setPending [.reset Config.defaultFont [] Config.defaultQuirks]).pending =
      .reset Config.defaultFont [] Config.defaultQuirks :: [] :=
  ⟨⟨rfl, rfl, rfl⟩, rfl, rfl, rfl, rfl, rfl, rfl⟩

theorem test_reset_meets_Inv : State.reset.Inv :=
  ⟨rfl, fun _ h => absurd h (Nat.not_lt_zero _), by decide, by decide, fun _ => ⟨rfl, rfl, rfl⟩, by decide⟩

theorem test_meets_HaltedStateIsFrozenUntilReset :
    haltedState.Inv ∧ haltedState.halted = true ∧
    (∀ font rom q es, haltedState.pending ≠ .reset font rom q :: es) ∧ ∃ t, step haltedState = .next t :=
  ⟨⟨rfl, fun _ h => absurd h (Nat.not_lt_zero _), by decide, by decide, by decide, by decide⟩, rfl,
    (fun _ _ _ _ h => by cases h), _, rfl⟩

theorem test_meets_ResetEvents :
    (pend [.reset Config.defaultFont (List.replicate 3584 0x12) Config.defaultQuirks]).pending =
      .reset Config.defaultFont (List.replicate 3584 0x12) Config.defaultQuirks :: [] ∧
    (List.replicate 3584 (0x12 : Byte)).length ≤ 3584 ∧ 3584 < (List.replicate 3585 (0x12 : Byte)).length :=
  ⟨rfl, by rw [List.length_replicate], by rw [List.length_replicate]; omega⟩

theorem test_meets_StepKeepsInvariant : State.reset.Inv ∧ ∃ t, step State.reset = .next t :=
  ⟨test_reset_meets_Inv, _, rfl⟩

/-- A state for each of the causes, and for each of the four instructions that raise DataBounds. -/
theorem test_meets_FaultsArePreciseAndOnlyTheFour :
    meets (step (atPc 0xFFF)) (fun t => t.fcause == 3) = true ∧
    runs 0x2200 (calls 16) (fun t => t.fcause == 1) = true ∧
    runs 0x00EE (calls 0) (fun t => t.fcause == 2) = true ∧
    runs 0xD001 (atI 0x1000) (fun t => t.fcause == 4) = true ∧
    runs 0xF033 (atI 0x0FFE) (fun t => t.fcause == 4) = true ∧
    runs 0xF055 (atI 0x1000) (fun t => t.fcause == 4) = true ∧
    runs 0xF065 (atI 0x1000) (fun t => t.fcause == 4) = true := by decide

theorem test_meets_ParkedMachineStaysParked :
    (parkedState.parked = true ∧ parkedState.pending = []) ∧
    ((parkedState.setPending [.tick]).parked = true ∧
      (parkedState.setPending [.tick]).pending = .tick :: [] ∧
      ∀ font rom q, HostEvent.tick ≠ .reset font rom q) :=
  ⟨by decide, by decide, rfl, fun _ _ _ h => by cases h⟩

theorem test_meets_ReturnPopsOrUnderflows :
    (calls 1).sp.val = (0 : Fin 16).val + 1 ∧ (calls 16).sp.val = (15 : Fin 16).val + 1 ∧
    (calls 0).sp.val = 0 := by decide

theorem test_meets_CallPushesOrOverflows :
    (calls 0).sp.val = (0 : Fin 16).val ∧ (calls 15).sp.val = (15 : Fin 16).val ∧ (calls 16).sp.val = 16 := by
  decide

theorem test_meets_JumpWithOffset :
    State.reset.q.jo = true ∧ (quirks true true false false false State.reset).q.jo = false ∧
    (0 : Reg).val = (0x0FF#12).toNat / 256 ∧ (15 : Reg).val = (0xFFF#12).toNat / 256 := by decide

/-- X other than F, and other registers than X and F, for the flag instructions. -/
theorem test_meets_flag_statements : (0 : Reg) ≠ 15 ∧ (14 : Reg) ≠ 15 ∧ (1 : Reg) ≠ 0 ∧ (14 : Reg) ≠ 0 := by
  decide

theorem test_meets_ShiftsByOne :
    (0xF3 : Byte) = (if (regs [(1, 0x05), (2, 0xF3)]).q.rs = true then (regs [(1, 0x05), (2, 0xF3)]).getV 2
      else (regs [(1, 0x05), (2, 0xF3)]).getV 1) := by decide

theorem test_meets_RandomIsTheDrawMasked :
    ({ State.reset with randIn := [0xA7] } : State).randIn = 0xA7 :: [] ∧ State.reset.randIn = [] := by decide

theorem test_meets_StoreDecimalDigits : (atI 0xFFD).dataAddr 2 ≤ 0xFFF ∧ 0xFFF < (atI 0xFFE).dataAddr 2 := by
  decide

theorem test_meets_StoreAndLoadRegisters :
    (atI 0xFFF).dataAddr (0 : Reg).val ≤ 0xFFF ∧ (atI 0xFF0).dataAddr (15 : Reg).val ≤ 0xFFF ∧
    0xFFF < (atI 0xFF1).dataAddr (15 : Reg).val ∧ 0xFFF < (atI 0xFFFF).dataAddr (0 : Reg).val := by decide

/-- DXYN's clauses: no rows at any I, the last admitted base, the first refused one, and, with one row
F0 at (0, 0), a pixel covered, a pixel not covered, a collision and none. -/
theorem test_meets_DrawIsXorWithCollision :
    ((0 : Fin 16).val = 0 ∨ (atI 0xFFFF).dataAddr ((0 : Fin 16).val - 1) ≤ 0xFFF) ∧
    (atI 0xFF1).dataAddr ((15 : Fin 16).val - 1) ≤ 0xFFF ∧
    (1 ≤ (15 : Fin 16).val ∧ 0xFFF < (atI 0xFF2).dataAddr ((15 : Fin 16).val - 1)) ∧
    (1 ≤ (1 : Fin 16).val ∧ 0xFFF < (atI 0x1000).dataAddr ((1 : Fin 16).val - 1)) ∧
    spriteCovers [] 0x050 0 0 1 0 3 ∧ ¬ spriteCovers [] 0x050 0 0 1 1 3 ∧
    pixel (setPixel blankDisplay 0 3 true) 0 3 = true ∧ pixel blankDisplay 0 3 = false := by
  refine ⟨by decide, by decide, by decide, by decide, ⟨0, 3, by decide, by decide, by decide, by decide,
    by decide⟩, ?_, by decide, by decide⟩
  rintro ⟨r, c, hr, -, -, -, hy⟩
  have : r = 0 := by omega
  subst this
  exact absurd hy (by decide)

/-- The row F0 of the default glyph 0, drawn at (0, 0), then at (64, 32), which is the same place. -/
theorem test_meets_DrawingTwiceRestores :
    ∃ t s' t' : State, exec (.drw 0 1 1) (atI 0x050) = .next t ∧ s'.fb = t.fb ∧
      exec (.drw 0 1 1) s' = .next t' ∧ (atI 0x050).dataAddr ((1 : Fin 16).val - 1) ≤ 0xFFF ∧
      s'.dataAddr ((1 : Fin 16).val - 1) ≤ 0xFFF ∧
      (s'.getV 0).toNat % 64 = ((atI 0x050).getV 0).toNat % 64 ∧ s'.getV 0 ≠ (atI 0x050).getV 0 ∧
      (s'.getV 1).toNat % 32 = ((atI 0x050).getV 1).toNat % 32 ∧ s'.getV 1 ≠ (atI 0x050).getV 1 ∧
      (∀ r, r < (1 : Fin 16).val → s'.mem.read (s'.dataAddr r) = (atI 0x050).mem.read ((atI 0x050).dataAddr r)) ∧
      pixel (atI 0x050).fb 0 0 = false ∧ spriteCovers [] 0x050 0 0 1 0 0 :=
  ⟨_, (((atI 0x050).setV 0 64).setV 1 32).present
      (drawRows [] 0x050 (blankDisplay, false) 0 0 1).1 true, _, rfl, rfl, rfl, by decide, by decide, by decide,
    by decide, by decide, by decide, fun _ _ => rfl, by decide, 0, 0, by decide, by decide, by decide, by decide,
    by decide⟩

theorem test_meets_DrawAfterClearHasNoCollision :
    ∃ t t' : State, exec .cls (atI 0x050) = .next t ∧ t.halted = false ∧ exec (.drw 0 0 1) t = .next t' ∧
      t'.halted = false := ⟨_, _, rfl, rfl, rfl, rfl⟩

theorem test_meets_KeySkips :
    ((regs [(1, 0x00)]).getV 1).toNat = (0 : Key).val ∧ ((regs [(1, 0x0F)]).getV 1).toNat = (15 : Key).val ∧
    0x0F < ((regs [(1, 0x10)]).getV 1).toNat := by decide

theorem test_meets_KeyWait :
    (State.reset.halted = false ∧ State.reset.pending = []) ∧ (pend [.keyDown 7]).pending = .keyDown 7 :: [] := by
  decide

theorem test_meets_RegistersWrittenAsTabled :
    meets (exec (.ldRegs 15) (atI 0x050)) (fun t => t.getV 15 != (atI 0x050).getV 15) = true := by decide

theorem test_meets_PCChangesOnlyByTransfers :
    meets (exec (.jp 0x300) State.reset) (fun t => t.pc != State.reset.pc) = true ∧
    meets (exec (.seImm 0 0) State.reset) (fun t => t.pc != State.reset.pc) = true ∧
    meets (exec .ret ((calls 1).setPc 0x300)) (fun t => t.pc != 0x300) = true := by decide

theorem test_meets_IndexWrittenOnlyByItsInstructions :
    meets (exec (.ldI 0x300) State.reset) (fun t => t.idx != State.reset.idx) = true ∧
    meets (exec (.stRegs 1) (quirks true true true true false State.reset)) (fun t => t.idx != 0) = true := by
  decide

theorem test_meets_OnlyCallPushesOnlyReturnPops :
    meets (exec (.call 0x300) (calls 15)) (fun t => t.sp != (calls 15).sp) = true ∧
    meets (exec .ret (calls 1)) (fun t => t.sp != (calls 1).sp) = true ∧
    ((calls 16).halted = false ∧ meets (exec (.call 0x300) (calls 16)) (fun t => t.halted) = true) := by decide

theorem test_meets_TimersWrittenOnlyByTheirInstructions :
    meets (exec (.ldDtVx 1) (regs [(1, 3)])) (fun t => t.dt != State.reset.dt) = true ∧
    meets (exec (.ldStVx 1) (regs [(1, 3)])) (fun t => t.st != State.reset.st) = true ∧
    (∃ t, (pend [.tick]).pending = .tick :: [] ∧ step (pend [.tick]) = .next t) :=
  ⟨by decide, by decide, _, rfl, rfl⟩

theorem test_meets_DisplayMemoryAndWaitWriters :
    meets (exec .cls State.reset) (fun t => t.frameEvents != State.reset.frameEvents) = true ∧
    meets (exec (.ldB 1) ((atI 0x300).setV 1 0xFF)) (fun t => t.mem != State.reset.mem) = true ∧
    meets (exec (.ldVxK 5) State.reset) (fun t => t.wait != State.reset.wait) = true := by decide

/-- For each of the five instructions a setting of the other four flags that differs from `s.q`. -/
theorem test_meets_QuirkFlagsAreIndependent :
    (quirks true false false true true State.reset).q.rs = State.reset.q.rs ∧
    (quirks false true false true true State.reset).q.ls = State.reset.q.ls ∧
    (quirks false false true true true State.reset).q.jo = State.reset.q.jo ∧
    (quirks false false false false true State.reset).q.si = State.reset.q.si ∧
    (quirks false false false true false State.reset).q.li = State.reset.q.li ∧
    (∃ t, exec (.shr 1 2) State.reset = .next t) := ⟨rfl, rfl, rfl, rfl, rfl, _, rfl⟩

theorem test_meets_DirtyAndSoundTimerAreNeverRead : ∃ t, exec (.ldDtVx 1) State.reset = .next t := ⟨_, rfl⟩

end Sys2Proof.Tests
end

section
/-! The opcode map selects one row (30_encoding.md R95, R96): its rows are pairwise disjoint, so the row a
word matches is the row `decode` finds. -/

namespace Sys2Proof

/-- No word matches both rows (R95). -/
def OpcodeRow.Disjoint (r r' : OpcodeRow) : Prop := ∀ w : Word, ¬ (r.matches w = true ∧ r'.matches w = true)

/-- Two rows fix different digits where both masks look. -/
def OpcodeRow.clashes (r r' : OpcodeRow) : Bool := r.val &&& r'.mask != r'.val &&& r.mask

theorem OpcodeRow.matches_iff (r : OpcodeRow) (w : Word) : r.matches w = true ↔ w &&& r.mask = r.val :=
  beq_iff_eq

/-- A word that matched both rows would agree with both on the digits both masks look at. -/
theorem OpcodeRow.disjoint_of_clashes {r r' : OpcodeRow} (h : r.clashes r' = true) : r.Disjoint r' := by
  rintro w ⟨hr, hr'⟩
  rw [matches_iff] at hr hr'
  refine bne_iff_ne.mp h ?_
  calc r.val &&& r'.mask
      = w &&& r.mask &&& r'.mask := by rw [hr]
    _ = w &&& r'.mask &&& r.mask := by ac_rfl
    _ = r'.val &&& r.mask := by rw [hr']

/-- The 34 (mask, match) pairs are disjoint (R95). -/
theorem opcodeMap_pairwise_disjoint : opcodeMap.Pairwise OpcodeRow.Disjoint :=
  have clash : opcodeMap.Pairwise (fun r r' => r.clashes r' = true) := by decide
  clash.imp OpcodeRow.disjoint_of_clashes

theorem find?_matches_of_pairwise_disjoint {rows : List OpcodeRow} (hrows : rows.Pairwise OpcodeRow.Disjoint)
    {r : OpcodeRow} (hr : r ∈ rows) {w : Word} (hw : r.matches w = true) :
    rows.find? (·.matches w) = some r := by
  induction hrows with
  | nil => cases hr
  | @cons head tail hhead _ ih =>
    cases hr with
    | head => exact List.find?_cons_of_pos hw
    | tail _ hr =>
      have hmiss : ¬ head.matches w = true := fun h => hhead r hr w ⟨h, hw⟩
      exact (List.find?_cons_of_neg (p := fun q : OpcodeRow => q.matches w) hmiss).trans (ih hr)

theorem decode_of_matches {w : Word} {r : OpcodeRow} (hr : r ∈ opcodeMap) (hw : r.matches w = true) :
    decode w = r.build w := by
  rw [decode, find?_matches_of_pairwise_disjoint opcodeMap_pairwise_disjoint hr hw]

theorem decode_of_no_match {w : Word} (h : ∀ r ∈ opcodeMap, r.matches w = false) : decode w = .undef w := by
  have hnone : opcodeMap.find? (·.matches w) = none :=
    List.find?_eq_none.mpr fun r hr => Bool.eq_false_iff.mp (h r hr)
  rw [decode, hnone]

/-- Settles O2: rows that clash on their common mask are disjoint, so `find?` meets the matching row. -/
theorem decodeSelectsTheOneMatchingRow : Obligations.DecodeSelectsTheOneMatchingRow :=
  ⟨rfl, opcodeMap_pairwise_disjoint, fun _ _ => decode_of_matches, fun _ => decode_of_no_match⟩

/-- Settles O3: the statement is `decode_of_matches` at each row of `opcodeMap`, written out as a
conjunction by `List.Forall`. -/
theorem opcodeMapRowByRow : Obligations.OpcodeMapRowByRow := fun w =>
  have rows : opcodeMap.Forall fun r => w &&& r.mask = r.val → decode w = r.build w :=
    List.forall_iff_forall_mem.mpr fun r hr hw => decode_of_matches hr ((r.matches_iff w).mpr hw)
  rows

end Sys2Proof
end

section
/-! The jumps 1NNN and BNNN (40_flow.md R121, R123): what their word decodes to, and the PC each loads. -/

namespace Sys2Proof

/-- The row that the word of a documented instruction matches gives the instruction back (R95, R96). -/
theorem decode_encode_of_ne_undef {i : Instr} (hi : ∀ w, i ≠ .undef w) : decode (encode i) = i := by
  rcases Laws.EncodesRow.all i with ⟨r, hr, hmatch, hbuild⟩ | hundef
  · exact (decode_of_matches hr hmatch).trans hbuild
  · exact absurd hundef (hi _)

namespace Machine

/-! ### Jump targets -/

@[simp] theorem address_toNat (nnn : BitVec 12) : (address nnn).toNat = nnn.toNat :=
  BitVec.toNat_setWidth_of_le (by decide)

@[simp] theorem zextByte_toNat (b : Byte) : (zextByte b).toNat = b.toNat :=
  BitVec.toNat_setWidth_of_le (by decide)

/-- The sum of an address and a byte is at most 0x10FE, so it never wraps in 16 bits (R123). -/
theorem address_add_zextByte_toNat (nnn : BitVec 12) (b : Byte) :
    (address nnn + zextByte b).toNat = nnn.toNat + b.toNat := by
  have hnnn := nnn.isLt
  have hb := b.isLt
  have hlt : (address nnn).toNat + (zextByte b).toNat < 2 ^ 16 := by
    rw [address_toNat, zextByte_toNat]; omega
  rw [BitVec.toNat_add_of_lt hlt, address_toNat, zextByte_toNat]

/-! ### The register BNNN adds -/

@[simp] theorem offsetReg_true (nnn : BitVec 12) : offsetReg true nnn = 0 := rfl

/-- With Q.jo disabled it is X, the top digit of NNN (R98). -/
theorem offsetReg_false_val (nnn : BitVec 12) : (offsetReg false nnn).val = nnn.toNat / 256 := by
  have hnnn := nnn.isLt
  have hdigit : (offsetReg false nnn).val = nnn.toNat / 256 % 16 := by
    simp [offsetReg, regOfDigit, Nat.shiftRight_eq_div_pow]
  omega

/-! ### What the jumps do -/

/-- Loading PC changes no other field (R24). -/
theorem State.setPc_restore (s : State) (w : Word) : { s.setPc w with pc := s.pc } = s := rfl

theorem exec_jp (nnn : BitVec 12) (s : State) : exec (.jp nnn) s = .next (s.setPc (address nnn)) := rfl

theorem exec_jpV0 (nnn : BitVec 12) (s : State) :
    exec (.jpV0 nnn) s = .next (s.setPc (address nnn + zextByte (s.getV (offsetReg s.q.jo nnn)))) := rfl

/-- Settles O30: `execJp` is one `setPc`, and the zero-extended NNN keeps its value. -/
theorem jumpLoadsPC : Obligations.JumpLoadsPC := fun nnn s =>
  ⟨decode_encode_of_ne_undef (i := .jp nnn) nofun,
    s.setPc (address nnn), exec_jp nnn s, address_toNat nnn, s.setPc_restore _, fun _ => rfl⟩

/-- Settles O32: `execJpV0` is one `setPc`, and the sum of NNN and the register Q.jo selects does not
wrap. -/
theorem jumpWithOffset : Obligations.JumpWithOffset := by
  intro nnn s
  refine ⟨decode_encode_of_ne_undef (i := .jpV0 nnn) nofun, _, exec_jpV0 nnn s, ?_, ?_,
    s.setPc_restore _, fun _ => rfl⟩
  · intro hjo
    rw [State.setPc_pc, address_add_zextByte_toNat, hjo, offsetReg_true]
  · intro hjo x hx
    have hreg : offsetReg false nnn = x := Fin.ext ((offsetReg_false_val nnn).trans hx.symm)
    rw [State.setPc_pc, address_add_zextByte_toNat, hjo, hreg]

end Machine
end Sys2Proof
end

section
/-! The conditional skips 3XNN, 4XNN, 5XY0 and 9XY0 (41_skip.md R130 to R134): each is one `skipIf`, and
they differ in the condition alone. -/

namespace Sys2Proof.Machine

/-! ### What a skip does -/

/-- A skip changes PC alone (R130). -/
theorem State.skipIf_restore (s : State) (c : Bool) : { s.skipIf c with pc := s.pc } = s := by
  cases c with
  | true => exact s.setPc_restore (s.pc + 2)
  | false => rfl

/-- An instruction that is one skip, when its Boolean test says `p`, moves PC by `p` and keeps the rest. -/
theorem exec_skip {i : Instr} {s : State} {c : Bool} {p : Prop} [Decidable p]
    (hexec : exec i s = .next (s.skipIf c)) (hc : c = true ↔ p) :
    ∃ t, exec i s = .next t ∧ t.pc = (if p then s.pc + 2 else s.pc) ∧ { t with pc := s.pc } = s ∧
      ∀ a, t.mem.read a = s.mem.read a :=
  ⟨s.skipIf c, hexec, (s.skipIf_pc c).trans (if_congr hc rfl rfl), s.skipIf_restore c,
    fun a => by rw [s.skipIf_mem]⟩

/-! ### The condition of each skip -/

theorem exec_seImm (x : Reg) (nn : Byte) (s : State) :
    exec (.seImm x nn) s = .next (s.skipIf (s.getV x == nn)) := rfl

theorem exec_sneImm (x : Reg) (nn : Byte) (s : State) :
    exec (.sneImm x nn) s = .next (s.skipIf (s.getV x != nn)) := rfl

theorem exec_seReg (x y : Reg) (s : State) :
    exec (.seReg x y) s = .next (s.skipIf (s.getV x == s.getV y)) := rfl

theorem exec_sneReg (x y : Reg) (s : State) :
    exec (.sneReg x y) s = .next (s.skipIf (s.getV x != s.getV y)) := rfl

/-- Settles O33: `exec_skip` at the four conditions. -/
theorem conditionalSkips : Obligations.ConditionalSkips := fun x y nn s =>
  ⟨⟨decode_encode_of_ne_undef (i := .seImm x nn) nofun, exec_skip (exec_seImm x nn s) beq_iff_eq⟩,
    ⟨decode_encode_of_ne_undef (i := .sneImm x nn) nofun, exec_skip (exec_sneImm x nn s) bne_iff_ne⟩,
    ⟨decode_encode_of_ne_undef (i := .seReg x y) nofun, exec_skip (exec_seReg x y s) beq_iff_eq⟩,
    ⟨decode_encode_of_ne_undef (i := .sneReg x y) nofun, exec_skip (exec_sneReg x y s) bne_iff_ne⟩⟩

end Sys2Proof.Machine
end

section
/-! The loads of the index register ANNN and FX29 (43_index_memory.md R160, R162): each is one `setI`, and
they differ in the address alone. -/

namespace Sys2Proof.Machine

/-! ### The address of a glyph -/

/-- The AND with 0x0F keeps the low nibble of a byte (R162). -/
theorem and_lowNibble_toNat (b : Byte) : (b &&& 0x0F).toNat = b.toNat % 16 := by
  rw [BitVec.toNat_and]
  exact Nat.and_two_pow_sub_one_eq_mod b.toNat 4

/-- The last glyph starts at 0x09B, so the address does not wrap in 16 bits (R162). -/
theorem glyphAddr_toNat (b : Byte) : (glyphAddr b).toNat = 0x050 + b.toNat % 16 * 5 := by
  have hlt : 0x050 + b.toNat % 16 * 5 < 2 ^ 16 := by omega
  rw [glyphAddr, and_lowNibble_toNat, Config.fontBase, BitVec.toNat_ofNat, Nat.mod_eq_of_lt hlt]

/-! ### What a load of I does -/

/-- Loading I changes no other field (R29). -/
theorem State.setI_restore (s : State) (w : Word) : { s.setI w with idx := s.idx } = s := rfl

theorem exec_ldI (nnn : BitVec 12) (s : State) : exec (.ldI nnn) s = .next (s.setI (address nnn)) := rfl

theorem exec_ldF (x : Reg) (s : State) : exec (.ldF x) s = .next (s.setI (glyphAddr (s.getV x))) := rfl

/-- Settles O40: both instructions are one `setI`; the zero-extended NNN keeps its value
(`address_toNat`), and the glyph's address is R162's number (`glyphAddr_toNat`). -/
theorem loadIndex : Obligations.LoadIndex :=
  ⟨fun nnn s => ⟨decode_encode_of_ne_undef (i := .ldI nnn) nofun,
      s.setI (address nnn), exec_ldI nnn s, address_toNat nnn, s.setI_restore _, fun _ => rfl⟩,
    fun x s => ⟨decode_encode_of_ne_undef (i := .ldF x) nofun,
      s.setI (glyphAddr (s.getV x)), exec_ldF x s, glyphAddr_toNat (s.getV x), s.setI_restore _,
      fun _ => rfl⟩⟩

end Sys2Proof.Machine
end

section
/-! The timer instructions FX07, FX15 and FX18, and who writes DT and ST (45_keypad_timer.md R183,
R186 to R188). -/

namespace Sys2Proof.Machine

/-! ### What each timer instruction does -/

/-- Writing a register changes no other field than the registers (R20). -/
theorem State.setV_restore (s : State) (x : Reg) (b : Byte) : { s.setV x b with v := s.v } = s := rfl

/-- Writing DT changes no other field (R32). -/
theorem State.setDt_restore (s : State) (b : Byte) : { s.setDt b with dt := s.dt } = s := rfl

/-- Writing ST changes no other field (R32). -/
theorem State.setSt_restore (s : State) (b : Byte) : { s.setSt b with st := s.st } = s := rfl

/-- The sound is on exactly while ST is not 0 (R33). -/
theorem State.soundOn_iff (s : State) : s.soundOn = true ↔ s.st ≠ 0 := bne_iff_ne

theorem exec_ldVxDt (x : Reg) (s : State) : exec (.ldVxDt x) s = .next (s.setV x s.dt) := rfl

theorem exec_ldDtVx (x : Reg) (s : State) : exec (.ldDtVx x) s = .next (s.setDt (s.getV x)) := rfl

theorem exec_ldStVx (x : Reg) (s : State) : exec (.ldStVx x) s = .next (s.setSt (s.getV x)) := rfl

/-- Settles O50: each instruction is one write, of VX, DT or ST, and `soundOn_iff` reads the sound output
off the ST written. -/
theorem timerInstructions : Obligations.TimerInstructions := by
  intro x s
  refine ⟨⟨decode_encode_of_ne_undef (i := .ldVxDt x) nofun, _, exec_ldVxDt x s, ?_, fun r hr => ?_,
      s.setV_restore x _, fun _ => rfl⟩,
    ⟨decode_encode_of_ne_undef (i := .ldDtVx x) nofun, _, exec_ldDtVx x s, s.setDt_dt _,
      s.setDt_restore _, fun _ => rfl⟩,
    ⟨decode_encode_of_ne_undef (i := .ldStVx x) nofun, _, exec_ldStVx x s, s.setSt_st _,
      (s.setSt _).soundOn_iff, s.setSt_restore _, fun _ => rfl⟩⟩
  · rw [State.getV_setV, if_pos rfl]
  · rw [State.getV_setV, if_neg hr]

/-! ### Who writes the timers -/

/-- From `s` to `t` a timer changes only as `i` writes it: DT only if `i` is FX15, ST only if `i` is FX18,
each to the register's value (R188). -/
def TimerWrites (i : Instr) (s t : State) : Prop :=
  (t.dt ≠ s.dt → ∃ x, i = .ldDtVx x ∧ t.dt = s.getV x) ∧
  (t.st ≠ s.st → ∃ x, i = .ldStVx x ∧ t.st = s.getV x)

theorem TimerWrites.of_unchanged {i : Instr} {s t : State} (hdt : t.dt = s.dt) (hst : t.st = s.st) :
    TimerWrites i s t :=
  ⟨fun h => absurd hdt h, fun h => absurd hst h⟩

/-- A fault of the execution changes neither timer (R201). -/
theorem TimerWrites.execFault (i : Instr) (s : State) (k : FaultKind) :
    TimerWrites i s (s.execFault k i) :=
  .of_unchanged (s.execFault_dt k i) (s.execFault_st k i)

/-- A skip changes PC alone. -/
theorem TimerWrites.skipIf (i : Instr) (s : State) (c : Bool) : TimerWrites i s (s.skipIf c) :=
  .of_unchanged (s.skipIf_dt c) (s.skipIf_st c)

/-- Every instruction has a next state, and writes the timers only as R188 admits. -/
theorem exec_timerWrites (i : Instr) (s : State) : ∃ t, exec i s = .next t ∧ TimerWrites i s t := by
  cases i with
  | ldDtVx x => exact ⟨_, exec_ldDtVx x s, fun _ => ⟨x, rfl, s.setDt_dt _⟩, absurd (s.setDt_st _)⟩
  | ldStVx x => exact ⟨_, exec_ldStVx x s, absurd (s.setSt_dt _), fun _ => ⟨x, rfl, s.setSt_st _⟩⟩
  | seImm | sneImm | seReg | sneReg | skp | sknp => exact ⟨_, rfl, .skipIf ..⟩
  | ret =>
    rcases execRet_cases s with ⟨-, hfault⟩ | ⟨_, hpop⟩
    · exact ⟨_, hfault, .execFault ..⟩
    · exact ⟨_, hpop, .of_unchanged rfl rfl⟩
  | call nnn =>
    rcases execCall_cases nnn s with ⟨-, hfault⟩ | ⟨_, hpush⟩
    · exact ⟨_, hfault, .execFault ..⟩
    · exact ⟨_, hpush, .of_unchanged rfl rfl⟩
  | drw x y n =>
    rcases execDrw_cases x y n s with ⟨-, -, hfault⟩ | ⟨-, hdraw⟩
    · exact ⟨_, hfault, .execFault ..⟩
    · exact ⟨_, hdraw, .of_unchanged rfl rfl⟩
  | ldB x =>
    rcases execLdB_cases x s with ⟨-, hfault⟩ | ⟨-, hstore⟩
    · exact ⟨_, hfault, .execFault ..⟩
    · exact ⟨_, hstore, .of_unchanged rfl rfl⟩
  | stRegs x =>
    rcases execStRegs_cases x s with ⟨-, hfault⟩ | ⟨-, hstore⟩
    · exact ⟨_, hfault, .execFault ..⟩
    · exact ⟨_, hstore, .of_unchanged (State.bumpI_dt ..) (State.bumpI_st ..)⟩
  | ldRegs x =>
    rcases execLdRegs_cases x s with ⟨-, hfault⟩ | ⟨-, hload⟩
    · exact ⟨_, hfault, .execFault ..⟩
    · exact ⟨_, hload, .of_unchanged (State.bumpI_dt ..) (State.bumpI_st ..)⟩
  | rnd x nn => exact ⟨_, rfl, .of_unchanged s.drawRand_dt s.drawRand_st⟩
  | _ => exact ⟨_, rfl, .of_unchanged rfl rfl⟩

/-- A Step writes the timers only as the instruction it fetches does: a parked Step and a FetchBounds
fault leave them, and advancing PC past the instruction changes neither them nor a register. -/
theorem instrStep_timerWrites (s : State) :
    ∃ t, instrStep s = .next t ∧ TimerWrites (decode s.fetchWord) s t := by
  rcases instrStep_cases s with ⟨-, hpark⟩ | ⟨-, -, hpark⟩ | ⟨-, -, -, hfault⟩ | ⟨-, -, -, hexec⟩
  · exact ⟨s, hpark, .of_unchanged rfl rfl⟩
  · exact ⟨s, hpark, .of_unchanged rfl rfl⟩
  · exact ⟨_, hfault, .of_unchanged (s.raiseFault_dt ..) (s.raiseFault_st ..)⟩
  · rw [hexec]
    exact exec_timerWrites (decode s.fetchWord) (s.setPc (s.pc + 2))

/-- A Tick changes DT and ST alone (R218). -/
theorem State.tick_restore (s : State) : { s.tick with dt := s.dt, st := s.st } = s := rfl

/-- What holds of some next state of an outcome holds of the one it has. -/
theorem next_of_exists {o : Host.Outcome State Fault Refusal} {p : State → Prop} {t : State}
    (h : ∃ u, o = .next u ∧ p u) (ht : o = .next t) : p t := by
  obtain ⟨u, hu, hp⟩ := h
  obtain rfl : u = t := Host.Outcome.next.inj (hu.symm.trans ht)
  exact hp

/-- Settles O56: `exec_timerWrites` for an instruction, `instrStep_timerWrites` for a Step, and
`State.tick_restore`, after the event is taken off the schedule, for a Tick. -/
theorem timersWrittenOnlyByTheirInstructions : Obligations.TimersWrittenOnlyByTheirInstructions := by
  refine ⟨fun i s t h => next_of_exists (exec_timerWrites i s) h, fun s t hnone h => ?_,
    fun s t es htick h => ?_⟩
  · rw [step_no_event s hnone] at h
    exact next_of_exists (instrStep_timerWrites s) h
  · rw [step_tick s es htick] at h
    obtain rfl := Host.Outcome.next.inj h
    exact congrArg (·.setPending s.pending) (s.setPending es).tick_restore

end Sys2Proof.Machine
end

section
/-! The decoder and the encoder are inverse to each other (30_encoding.md R90 to R99): a word is its own
digits, so the row it matches builds an instruction whose word it is, and the words no row matches are
those of R99's table. -/

namespace Sys2Proof

/-! ### Fields as numbers (R92) -/

/-- The `n` bits from bit `k` on, as a number. -/
theorem Word.extractLsb'_toNat (w : Word) (k n : Nat) :
    (w.extractLsb' k n).toNat = w.toNat / 2 ^ k % 2 ^ n := by
  rw [BitVec.extractLsb'_toNat, Nat.shiftRight_eq_div_pow]

/-- Settles O1: each field is `extractLsb'` of the word, hence a quotient by one power of two modulo
another. -/
theorem fieldsOfAnOpcode : Obligations.FieldsOfAnOpcode := by
  intro w
  have hw := w.isLt
  simp only [fieldX, fieldY, fieldN, fieldNN, fieldNNN, regOfDigit, Word.extractLsb'_toNat]
  omega

/-! ### A word is the word of its own fields (R92, R93) -/

theorem wordNNN_fields (w : Word) : wordNNN (w.extractLsb' 12 4) (fieldNNN w) = w := word_of_address w

theorem wordXNN_fields (w : Word) : wordXNN (w.extractLsb' 12 4) (fieldX w) (fieldNN w) = w :=
  (BitVec.append_assoc ..).trans (word_of_byte w)

theorem wordXYN_fields (w : Word) :
    wordXYN (w.extractLsb' 12 4) (fieldX w) (fieldY w) (digitOfReg (fieldN w)) = w := by
  rw [wordXYN, BitVec.append_assoc, BitVec.append_assoc]
  exact word_of_digits w

/-! ### The word of what a row builds (R96)

The digits a row's mask keeps are the row's own; the others are the fields the row hands on. -/

section
variable {w v : Word}

/-- A word agrees with a row's value on the digits its mask keeps. -/
theorem digits_of_and {mask : Word} (k n : Nat) (hmask : mask.extractLsb' k n = BitVec.allOnes n)
    (h : w &&& mask = v) : w.extractLsb' k n = v.extractLsb' k n := by
  rw [← h, BitVec.extractLsb'_and, hmask, BitVec.and_allOnes]

theorem wordNNN_of_row (h : w &&& 0xF000#16 = v) : wordNNN (v.extractLsb' 12 4) (fieldNNN w) = w := by
  rw [← digits_of_and 12 4 rfl h, wordNNN_fields]

theorem wordXNN_of_row (h : w &&& 0xF000#16 = v) :
    wordXNN (v.extractLsb' 12 4) (fieldX w) (fieldNN w) = w := by
  rw [← digits_of_and 12 4 rfl h, wordXNN_fields]

theorem wordXYN_of_row (h : w &&& 0xF000#16 = v) :
    wordXYN (v.extractLsb' 12 4) (fieldX w) (fieldY w) (digitOfReg (fieldN w)) = w := by
  rw [← digits_of_and 12 4 rfl h, wordXYN_fields]

theorem wordXNN_of_byte_row (h : w &&& 0xF0FF#16 = v) :
    wordXNN (v.extractLsb' 12 4) (fieldX w) (v.extractLsb' 0 8) = w := by
  rw [← digits_of_and 12 4 rfl h, ← digits_of_and 0 8 rfl h]
  exact wordXNN_fields w

theorem wordXYN_of_last_row (h : w &&& 0xF00F#16 = v) :
    wordXYN (v.extractLsb' 12 4) (fieldX w) (fieldY w) (v.extractLsb' 0 4) = w := by
  rw [← digits_of_and 12 4 rfl h, ← digits_of_and 0 4 rfl h]
  exact wordXYN_fields w

end

/-- Each row in the order of `opcodeMap`, by the digits its mask keeps. -/
theorem encode_build_of_and :
    opcodeMap.Forall fun r => ∀ w, w &&& r.mask = r.val → encode (r.build w) = w := by
  have whole {w v : Word} (h : w &&& 0xFFFF#16 = v) : v = w := h.symm.trans (and_all w)
  have nnn {w v} := @wordNNN_of_row w v
  have xnn {w v} := @wordXNN_of_row w v
  have xyn {w v} := @wordXYN_of_row w v
  have byte {w v} := @wordXNN_of_byte_row w v
  have last {w v} := @wordXYN_of_last_row w v
  exact
    ⟨fun _ => whole, fun _ => whole, fun _ => nnn, fun _ => nnn, fun _ => xnn, fun _ => xnn,
      fun _ => last, fun _ => xnn, fun _ => xnn,
      fun _ => last, fun _ => last, fun _ => last, fun _ => last, fun _ => last, fun _ => last,
      fun _ => last, fun _ => last, fun _ => last, fun _ => last,
      fun _ => nnn, fun _ => nnn, fun _ => xnn, fun _ => xyn, fun _ => byte, fun _ => byte,
      fun _ => byte, fun _ => byte, fun _ => byte, fun _ => byte, fun _ => byte, fun _ => byte,
      fun _ => byte, fun _ => byte, fun _ => byte⟩

/-- What a row builds from a word it matches has that word (R96). -/
theorem encode_build_of_matches {r : OpcodeRow} (hr : r ∈ opcodeMap) {w : Word} (hw : r.matches w = true) :
    encode (r.build w) = w :=
  List.forall_iff_forall_mem.mp encode_build_of_and r hr w ((r.matches_iff w).mp hw)

/-- How decoding ends: with the instruction of a row the word matches, or, when it matches none, with UNDEF
(R95, R99). -/
theorem decode_cases (w : Word) :
    (∃ r ∈ opcodeMap, r.matches w = true ∧ decode w = r.build w) ∨
    ((∀ r ∈ opcodeMap, r.matches w = false) ∧ decode w = .undef w) := by
  by_cases h : ∃ r ∈ opcodeMap, r.matches w = true
  · obtain ⟨r, hr, hw⟩ := h
    exact .inl ⟨r, hr, hw, decode_of_matches hr hw⟩
  · have hnone : ∀ r ∈ opcodeMap, r.matches w = false :=
      fun r hr => Bool.eq_false_iff.mpr fun hw => h ⟨r, hr, hw⟩
    exact .inr ⟨hnone, decode_of_no_match hnone⟩

theorem encode_decode (w : Word) : encode (decode w) = w := by
  rcases decode_cases w with ⟨r, hr, hw, hdec⟩ | ⟨-, hdec⟩
  · rw [hdec, encode_build_of_matches hr hw]
  · rw [hdec, encode]

/-! ### The undefined words (R99) -/

/-- The word of a documented instruction is none of R99's table. -/
theorem isUndefWord_encode {i : Instr} (hi : ∀ w, i ≠ .undef w) : isUndefWord (encode i) = false := by
  cases i with
  | undef w => exact absurd rfl (hi w)
  | cls | ret => decide
  | _ => simp [encode, isUndefWord]

/-- Bits put together are a value exactly when they are that value's bits. -/
theorem append_eq_iff {m n : Nat} (a : BitVec m) (b : BitVec n) (v : BitVec (m + n)) :
    a ++ b = v ↔ a = v.extractLsb' n m ∧ b = v.extractLsb' 0 n := by
  constructor
  · rintro rfl
    exact ⟨BitVec.extractLsb'_append_eq_left.symm, BitVec.extractLsb'_append_eq_right.symm⟩
  · rintro ⟨rfl, rfl⟩
    simp [BitVec.extractLsb'_append_extractLsb'_eq_extractLsb']

section
variable (w v : Word)

theorem and_family_eq_iff :
    w &&& 0xF000#16 = v ↔ w.extractLsb' 12 4 = v.extractLsb' 12 4 ∧ 0#12 = v.extractLsb' 0 12 := by
  rw [and_family]
  exact append_eq_iff (m := 4) (n := 12) ..

theorem and_family_last_eq_iff :
    w &&& 0xF00F#16 = v ↔ w.extractLsb' 12 4 = v.extractLsb' 12 4 ∧
      0#8 = (v.extractLsb' 0 12).extractLsb' 4 8 ∧
      w.extractLsb' 0 4 = (v.extractLsb' 0 12).extractLsb' 0 4 := by
  rw [and_family_last]
  exact (append_eq_iff (m := 4) (n := 12) ..).trans (and_congr_right' (append_eq_iff (m := 8) (n := 4) ..))

theorem and_family_byte_eq_iff :
    w &&& 0xF0FF#16 = v ↔ w.extractLsb' 12 4 = v.extractLsb' 12 4 ∧
      0#4 = (v.extractLsb' 0 12).extractLsb' 8 4 ∧
      w.extractLsb' 0 8 = (v.extractLsb' 0 12).extractLsb' 0 8 := by
  rw [and_family_byte]
  exact (append_eq_iff (m := 4) (n := 12) ..).trans (and_congr_right' (append_eq_iff (m := 4) (n := 8) ..))

end

/-- The rows a word misses, family by family. -/
theorem digits_of_no_match {w : Word} (h : ∀ r ∈ opcodeMap, r.matches w = false) :
    (w ≠ 0x00E0 ∧ w ≠ 0x00EE) ∧
    w.extractLsb' 12 4 ∉ [0x1, 0x2, 0x3, 0x4, 0x6, 0x7, 0xA, 0xB, 0xC, 0xD] ∧
    (w.extractLsb' 12 4 = 0x5 ∨ w.extractLsb' 12 4 = 0x9 → w.extractLsb' 0 4 ≠ 0x0) ∧
    (w.extractLsb' 12 4 = 0x8 → w.extractLsb' 0 4 ∉ [0x0, 0x1, 0x2, 0x3, 0x4, 0x5, 0x6, 0x7, 0xE]) ∧
    (w.extractLsb' 12 4 = 0xE → w.extractLsb' 0 8 ∉ [0x9E, 0xA1]) ∧
    (w.extractLsb' 12 4 = 0xF →
      w.extractLsb' 0 8 ∉ [0x07, 0x0A, 0x15, 0x18, 0x1E, 0x29, 0x33, 0x55, 0x65]) := by
  have hmiss : opcodeMap.Forall fun r => ¬ w &&& r.mask = r.val :=
    List.forall_iff_forall_mem.mpr fun r hr hw => by simpa [h r hr] using (r.matches_iff w).mpr hw
  simp [opcodeMap, opcodeRowsLow, opcodeRowsArith, opcodeRowsHigh, opcodeRowsF, and_all,
    and_family_eq_iff, and_family_last_eq_iff, and_family_byte_eq_iff] at hmiss
  simp +contextual [hmiss, or_imp]

/-- A word that no row matches is in R99's table: its family is one of 0, 5, 8, 9, E, F, and within the
family its last digits are none of a row's. -/
theorem isUndefWord_of_no_match {w : Word} (h : ∀ r ∈ opcodeMap, r.matches w = false) :
    isUndefWord w = true := by
  have families : ∀ f : BitVec 4, f ∉ [0x1, 0x2, 0x3, 0x4, 0x6, 0x7, 0xA, 0xB, 0xC, 0xD] →
      f ∈ [0x0, 0x5, 0x8, 0x9, 0xE, 0xF] := by decide
  have lastDigits : ∀ n : BitVec 4, n ∉ [0x0, 0x1, 0x2, 0x3, 0x4, 0x5, 0x6, 0x7, 0xE] →
      n ∈ [0x8, 0x9, 0xA, 0xB, 0xC, 0xD, 0xF] := by decide
  obtain ⟨h0, hfamily, h59, h8, hE, hF⟩ := digits_of_no_match h
  replace hfamily := families _ hfamily
  unfold isUndefWord
  generalize w.extractLsb' 12 4 = f at *
  simp only [List.mem_cons, List.not_mem_nil, or_false] at hfamily
  rcases hfamily with rfl | rfl | rfl | rfl | rfl | rfl
  · simpa using h0
  · simpa using h59 (by decide)
  · simpa using lastDigits _ (h8 rfl)
  · simpa using h59 (by decide)
  · simpa using hE rfl
  · simpa using hF rfl

theorem build_ne_undef : opcodeMap.Forall fun r => ∀ w w', r.build w ≠ .undef w' := by
  simp [opcodeMap, opcodeRowsLow, opcodeRowsArith, opcodeRowsHigh, opcodeRowsF]

/-- R99's table says which of the two ways decoding goes. -/
theorem decode_documented_or_undef (w : Word) :
    ((∀ w', decode w ≠ .undef w') ∧ isUndefWord w = false) ∨ (decode w = .undef w ∧ isUndefWord w = true) := by
  rcases decode_cases w with ⟨r, hr, -, hdec⟩ | ⟨hnone, hdec⟩
  · have hdoc : ∀ w', decode w ≠ .undef w' := by
      rw [hdec]
      exact List.forall_iff_forall_mem.mp build_ne_undef r hr w
    refine .inl ⟨hdoc, ?_⟩
    rw [← encode_decode w]
    exact isUndefWord_encode hdoc
  · exact .inr ⟨hdec, isUndefWord_of_no_match hnone⟩

theorem isUndefWord_iff_decode (w : Word) : isUndefWord w = true ↔ decode w = .undef w := by
  rcases decode_documented_or_undef w with ⟨hdoc, hword⟩ | ⟨hdec, hword⟩
  · simp [hword, hdoc w]
  · simp [hword, hdec]

theorem wf_of_ne_undef {i : Instr} (hi : ∀ w, i ≠ .undef w) : i.wf = true := by
  cases i with
  | undef w => exact absurd rfl (hi w)
  | _ => rfl

/-! ### The round trips -/

theorem decode_encode {i : Instr} (hi : i.wf = true) : decode (encode i) = i := by
  by_cases hdoc : ∀ w, i ≠ .undef w
  · exact decode_encode_of_ne_undef hdoc
  · obtain ⟨w, rfl⟩ := not_forall_not.mp hdoc
    exact (isUndefWord_iff_decode w).mp hi

/-- Settles O5: a documented instruction's word matches its row (`decode_encode_of_ne_undef`), and the word
of a well-formed UNDEF is one of R99's table (`isUndefWord_iff_decode`). -/
theorem decodeOfEncode : Obligations.DecodeOfEncode := fun _ => decode_encode

/-- Settles O6: a row rebuilds the word it matches, and UNDEF holds its word (`encode_decode`). -/
theorem encodeOfDecode : Obligations.EncodeOfDecode := by
  refine fun w => ⟨?_, encode_decode w⟩
  rcases decode_documented_or_undef w with ⟨hdoc, -⟩ | ⟨hdec, hword⟩
  · exact wf_of_ne_undef hdoc
  · rw [hdec]
    exact hword

/-- Settles O4: R99's table says which words decode to UNDEF, and `execUndef` does nothing. -/
theorem undefinedWordsAreNoOperations : Obligations.UndefinedWordsAreNoOperations :=
  ⟨isUndefWord_iff_decode, fun _ _ => rfl⟩

/-- Settles O7: the two bytes put together are the instruction's word, which decodes to it. -/
theorem bytesDecodeBigEndian : Obligations.BytesDecodeBigEndian := by
  refine ⟨fun i rest hi => ⟨rfl, ?_⟩, fun bs hbs => ?_⟩
  · show Except.ok (decode (hiByte (encode i) ++ loByte (encode i)), rest) = _
    rw [hiByte_append_loByte, decode_encode hi]
  · match bs, hbs with
    | [], _ => rfl
    | [_], _ => rfl
    | _ :: _ :: _, h => simp at h

/-- Settles O8, by running the decoder. -/
theorem wordsOfEachFamilyDecode : Obligations.WordsOfEachFamilyDecode := by
  unfold Obligations.WordsOfEachFamilyDecode
  decide

end Sys2Proof
end

section
/-! What an instruction does, in two parts: the fault it raises, told from the state alone, and its effect
when it raises none (20_memory.md R64, 60_exceptions.md R201: the check comes before any change). The
whole-machine statements are then read off the effect, instruction by instruction. -/

namespace Sys2Proof.Machine

/-- The fault an instruction raises, under the condition of its rule (R201 to R205). -/
def State.faultOf (s : State) : Instr → Option FaultKind
  | .ret => if s.sp.val = 0 then some .stackUnderflow else none
  | .call _ => if s.sp.val = 16 then some .stackOverflow else none
  | .drw _ _ n => if 1 ≤ n.val ∧ 0xFFF < s.dataAddr (n.val - 1) then some .dataBounds else none
  | .ldB _ => if 0xFFF < s.dataAddr 2 then some .dataBounds else none
  | .stRegs x => if 0xFFF < s.dataAddr x.val then some .dataBounds else none
  | .ldRegs x => if 0xFFF < s.dataAddr x.val then some .dataBounds else none
  | _ => none

/-- PC after a skip on `c` (R130). -/
def State.skipPc (s : State) (c : Bool) : Word := if c then s.pc + 2 else s.pc

theorem State.skipIf_eq_setPc (s : State) (c : Bool) : s.skipIf c = s.setPc (s.skipPc c) := by
  cases c <;> rfl

/-- I after FX55 or FX65 with their quirk `c` (R164 to R166). -/
def State.bumpedI (s : State) (c : Bool) (x : Reg) : Word := if c then s.idx + BitVec.ofNat 16 x.val else s.idx

theorem State.bumpI_eq_setI (s : State) (c : Bool) (x : Reg) : s.bumpI c x = s.setI (s.bumpedI c x) := by
  cases c <;> rfl

/-- The framebuffer and the collision that DXYN gives (R172). -/
def State.drawn (s : State) (x y : Reg) (n : Fin 16) : Display × Bool :=
  drawRows s.mem (s.dataAddr 0) (s.fb, false) (s.getV x) (s.getV y) n.val

/-- SP after a push (R31). -/
def State.pushedSp (s : State) : Fin 17 := ⟨min (s.sp.val + 1) 16, by omega⟩

/-- The top stack entry, which a pop uncovers (R31). -/
def State.top (s : State) : Fin 16 := ⟨s.sp.val - 1, by omega⟩

/-- The byte a draw gives (R153, log entry 5). -/
def State.randByte (s : State) : Byte := s.randIn.headD (Config.freeRand s.draws)

/-- The state after a draw: the host's byte used up, or the counter of free values advanced. -/
def State.afterDraw (s : State) : State :=
  { s with randIn := s.randIn.tail, draws := if s.randIn.isEmpty then s.draws + 1 else s.draws }

theorem State.drawRand_eq (s : State) : s.drawRand = (s.randByte, s.afterDraw) := by
  rcases s.drawRand_cases with ⟨r, rest, hrand, hdraw⟩ | ⟨hrand, hdraw⟩
  · simp [hdraw, State.randByte, State.afterDraw, hrand]
  · simp [hdraw, State.randByte, State.afterDraw, hrand]

/-- The state an instruction leaves when it raises no fault. -/
def State.effect (s : State) : Instr → State
  | .cls => s.present blankDisplay false
  | .ret => (s.setCalls s.stack s.top.castSucc).setPc (s.stack.get s.top)
  | .jp nnn => s.setPc (address nnn)
  | .call nnn => (s.setCalls (s.stack.setIfInBounds s.sp.val s.pc) s.pushedSp).setPc (address nnn)
  | .seImm x nn => s.setPc (s.skipPc (s.getV x == nn))
  | .sneImm x nn => s.setPc (s.skipPc (s.getV x != nn))
  | .seReg x y => s.setPc (s.skipPc (s.getV x == s.getV y))
  | .ldImm x nn => s.setV x nn
  | .addImm x nn => s.setV x (s.getV x + nn)
  | .ldReg x y => s.setV x (s.getV y)
  | .orReg x y => s.setV x (s.getV x ||| s.getV y)
  | .andReg x y => s.setV x (s.getV x &&& s.getV y)
  | .xorReg x y => s.setV x (s.getV x ^^^ s.getV y)
  | .addReg x y => s.resultThenFlag x (s.getV x + s.getV y) (carryFlag (s.getV x) (s.getV y))
  | .subReg x y => s.flagThenResult x (greaterFlag (s.getV x) (s.getV y)) (s.getV x - s.getV y)
  | .shr x y => s.resultThenFlag x (shiftSource s.q.rs (s.getV x) (s.getV y) >>> 1)
      (shrFlag (shiftSource s.q.rs (s.getV x) (s.getV y)))
  | .subnReg x y => s.flagThenResult x (greaterFlag (s.getV y) (s.getV x)) (s.getV y - s.getV x)
  | .shl x y => s.resultThenFlag x (shiftSource s.q.ls (s.getV x) (s.getV y) <<< 1)
      (shlFlag (shiftSource s.q.ls (s.getV x) (s.getV y)))
  | .sneReg x y => s.setPc (s.skipPc (s.getV x != s.getV y))
  | .ldI nnn => s.setI (address nnn)
  | .jpV0 nnn => s.setPc (address nnn + zextByte (s.getV (offsetReg s.q.jo nnn)))
  | .rnd x nn => s.afterDraw.setV x (s.randByte &&& nn)
  | .drw x y n => (s.setV regF (flagByte (s.drawn x y n).2)).present (s.drawn x y n).1 true
  | .skp x => s.setPc (s.skipPc (s.keyHeld (s.getV x)))
  | .sknp x => s.setPc (s.skipPc (!s.keyHeld (s.getV x)))
  | .ldVxDt x => s.setV x s.dt
  | .ldVxK x => s.setWait true x
  | .ldDtVx x => s.setDt (s.getV x)
  | .ldStVx x => s.setSt (s.getV x)
  | .addI x => (s.setI (s.idx + zextByte (s.getV x))).setV regF (indexFlag s.idx (s.getV x))
  | .ldF x => s.setI (glyphAddr (s.getV x))
  | .ldB x => s.setMem (s.mem.writeBytes (s.dataAddr 0) (decimalDigits (s.getV x)))
  | .stRegs x => (s.setMem (s.mem.writeBytes (s.dataAddr 0) (s.regsUpTo x))).setI (s.bumpedI s.q.si x)
  | .ldRegs x => (s.setRegs (loadRegs s.mem (s.dataAddr 0) s.v (x.val + 1))).setI (s.bumpedI s.q.li x)
  | .undef _ => s

/-- Every instruction has a next state: the fault's, or the effect's. -/
theorem exec_cases (i : Instr) (s : State) :
    (∃ k, s.faultOf i = some k ∧ exec i s = .next (s.execFault k i)) ∨
    (s.faultOf i = none ∧ exec i s = .next (s.effect i)) := by
  cases i with
  | ret =>
    rcases execRet_cases s with ⟨hsp, he⟩ | ⟨hsp, he⟩
    · exact .inl ⟨_, if_pos hsp, he⟩
    · exact .inr ⟨if_neg (by omega), he⟩
  | call nnn =>
    rcases execCall_cases nnn s with ⟨hsp, he⟩ | ⟨hsp, he⟩
    · exact .inl ⟨_, if_pos hsp, he⟩
    · refine .inr ⟨if_neg (by omega), he.trans ?_⟩
      have hpush : s.pushedSp = ⟨s.sp.val + 1, by omega⟩ := Fin.ext (by simp [State.pushedSp]; omega)
      have hset : s.stack.setIfInBounds s.sp.val s.pc = s.stack.set s.sp.val s.pc hsp := by
        simp [Vector.setIfInBounds, Vector.set, Array.setIfInBounds, hsp]
      rw [State.effect, hpush, hset]
  | drw x y n =>
    rcases execDrw_cases x y n s with ⟨hn, hpast, he⟩ | ⟨hin, he⟩
    · exact .inl ⟨_, if_pos ⟨hn, hpast⟩, he⟩
    · exact .inr ⟨if_neg (by omega), he⟩
  | ldB x =>
    rcases execLdB_cases x s with ⟨hpast, he⟩ | ⟨hin, he⟩
    · exact .inl ⟨_, if_pos hpast, he⟩
    · exact .inr ⟨if_neg (by omega), he⟩
  | stRegs x =>
    rcases execStRegs_cases x s with ⟨hpast, he⟩ | ⟨hin, he⟩
    · exact .inl ⟨_, if_pos hpast, he⟩
    · rw [State.bumpI_eq_setI] at he
      exact .inr ⟨if_neg (by omega), he⟩
  | ldRegs x =>
    rcases execLdRegs_cases x s with ⟨hpast, he⟩ | ⟨hin, he⟩
    · exact .inl ⟨_, if_pos hpast, he⟩
    · rw [State.bumpI_eq_setI] at he
      exact .inr ⟨if_neg (by omega), he⟩
  | seImm | sneImm | seReg | sneReg | skp | sknp =>
    exact .inr ⟨rfl, congrArg Host.Outcome.next (s.skipIf_eq_setPc _)⟩
  | rnd x nn =>
    refine .inr ⟨rfl, ?_⟩
    show Host.Outcome.next (s.drawRand.2.setV x (s.drawRand.1 &&& nn)) = _
    rw [State.drawRand_eq, State.effect]
  | _ => exact .inr ⟨rfl, rfl⟩

/-- An outcome is one next state at most. -/
theorem next_unique {o : Host.Outcome State Fault Refusal} {t u : State} (ht : o = .next t) (hu : o = .next u) :
    t = u :=
  Host.Outcome.next.inj (ht.symm.trans hu)

/-- The cases of the state an instruction answers. -/
theorem exec_next_cases {i : Instr} {s t : State} (h : exec i s = .next t) :
    (∃ k, s.faultOf i = some k ∧ t = s.execFault k i) ∨ (s.faultOf i = none ∧ t = s.effect i) := by
  rcases exec_cases i s with ⟨k, hk, he⟩ | ⟨hk, he⟩
  · exact .inl ⟨k, hk, next_unique h he⟩
  · exact .inr ⟨hk, next_unique h he⟩

theorem exec_of_fault {i : Instr} {s : State} {k : FaultKind} (h : s.faultOf i = some k) :
    exec i s = .next (s.execFault k i) := by
  rcases exec_cases i s with ⟨k', hk', he⟩ | ⟨hnone, -⟩
  · obtain rfl := Option.some.inj (h.symm.trans hk')
    exact he
  · cases h.symm.trans hnone

theorem exec_of_no_fault {i : Instr} {s : State} (h : s.faultOf i = none) : exec i s = .next (s.effect i) := by
  rcases exec_cases i s with ⟨k, hk, -⟩ | ⟨-, he⟩
  · cases h.symm.trans hk
  · exact he

end Sys2Proof.Machine
end

section
/-! What each field of the state may be changed by (10_state.md R22 to R46): a fault changes the latch alone,
and an effect is compared with the state it started from, instruction by instruction. -/

namespace Sys2Proof.Machine

/-! ### Registers (R22) -/

theorem State.eq_of_getV_setV_ne {s : State} {x r : Reg} {b : Byte} (h : (s.setV x b).getV r ≠ s.getV r) :
    r = x := by
  by_contra hr
  exact h (by rw [State.getV_setV, if_neg hr])

/-- The flag wins when X = F (8XY4, 8XY6, 8XYE). -/
theorem State.getV_resultThenFlag (s : State) (x r : Reg) (b f : Byte) :
    (s.resultThenFlag x b f).getV r = if r = 15 then f else if r = x then b else s.getV r := by
  rw [State.resultThenFlag, State.getV_setV, State.getV_setV, regF]

/-- The result wins when X = F (8XY5, 8XY7). -/
theorem State.getV_flagThenResult (s : State) (x r : Reg) (f b : Byte) :
    (s.flagThenResult x f b).getV r = if r = x then b else if r = 15 then f else s.getV r := by
  rw [State.flagThenResult, State.getV_setV, State.getV_setV, regF]

theorem State.eq_of_getV_resultThenFlag_ne {s : State} {x r : Reg} {b f : Byte}
    (h : (s.resultThenFlag x b f).getV r ≠ s.getV r) : r = x ∨ r = 15 := by
  by_contra hr
  obtain ⟨hx, hf⟩ := not_or.mp hr
  exact h (by rw [State.getV_resultThenFlag, if_neg hf, if_neg hx])

theorem State.eq_of_getV_flagThenResult_ne {s : State} {x r : Reg} {f b : Byte}
    (h : (s.flagThenResult x f b).getV r ≠ s.getV r) : r = x ∨ r = 15 := by
  by_contra hr
  obtain ⟨hx, hf⟩ := not_or.mp hr
  exact h (by rw [State.getV_flagThenResult, if_neg hx, if_neg hf])

theorem effect_writesReg {i : Instr} {r : Reg} {s : State} (h : (s.effect i).getV r ≠ s.getV r) :
    writesReg i r := by
  cases i with
  | ldImm | addImm | ldReg | orReg | andReg | xorReg | ldVxDt =>
    exact State.eq_of_getV_setV_ne h
  | rnd => exact State.eq_of_getV_setV_ne (s := s.afterDraw) h
  | addReg | shr | shl => exact State.eq_of_getV_resultThenFlag_ne h
  | subReg | subnReg => exact State.eq_of_getV_flagThenResult_ne h
  | drw | addI => exact State.eq_of_getV_setV_ne (x := regF) h
  | ldRegs x =>
    by_contra hr
    exact h ((loadRegs_get ..).trans (if_neg fun hlt => hr (Nat.lt_succ_iff.mp hlt)))
  | _ => exact absurd rfl h

/-- Settles O52: a fault writes no register, and an effect only those of the table. -/
theorem registersWrittenAsTabled : Obligations.RegistersWrittenAsTabled := by
  intro i r s t h hne
  rcases exec_next_cases h with ⟨k, -, rfl⟩ | ⟨-, rfl⟩
  · exact absurd (s.execFault_getV k i r) hne
  · exact effect_writesReg hne

/-! ### PC (R25) and I (R29) -/

theorem State.skipPc_of_ne {s : State} {c : Bool} (h : s.skipPc c ≠ s.pc) : s.skipPc c = s.pc + 2 := by
  cases c with
  | true => rfl
  | false => exact absurd rfl h

/-- Settles O53: a fault leaves PC, and so does every effect but the transfers'. -/
theorem pcChangesOnlyByTransfers : Obligations.PCChangesOnlyByTransfers := by
  intro i s t h hne
  rcases exec_next_cases h with ⟨k, -, rfl⟩ | ⟨-, rfl⟩
  · exact absurd (s.execFault_pc k i) hne
  · cases i with
    | ret => exact .inl rfl
    | jp nnn => exact .inr (.inl ⟨nnn, .inl rfl⟩)
    | call nnn => exact .inr (.inl ⟨nnn, .inr (.inl rfl)⟩)
    | jpV0 nnn => exact .inr (.inl ⟨nnn, .inr (.inr rfl)⟩)
    | seImm x nn => exact .inr (.inr ⟨State.skipPc_of_ne hne, .inl ⟨x, nn, .inl rfl⟩⟩)
    | sneImm x nn => exact .inr (.inr ⟨State.skipPc_of_ne hne, .inl ⟨x, nn, .inr rfl⟩⟩)
    | seReg x y => exact .inr (.inr ⟨State.skipPc_of_ne hne, .inr (.inl ⟨x, y, .inl rfl⟩)⟩)
    | sneReg x y => exact .inr (.inr ⟨State.skipPc_of_ne hne, .inr (.inl ⟨x, y, .inr rfl⟩)⟩)
    | skp x => exact .inr (.inr ⟨State.skipPc_of_ne hne, .inr (.inr ⟨x, .inl rfl⟩)⟩)
    | sknp x => exact .inr (.inr ⟨State.skipPc_of_ne hne, .inr (.inr ⟨x, .inr rfl⟩)⟩)
    | _ => exact absurd rfl hne

theorem State.quirk_of_bumpedI_ne {s : State} {c : Bool} {x : Reg} (h : s.bumpedI c x ≠ s.idx) : c = true := by
  cases c with
  | true => rfl
  | false => exact absurd rfl h

/-- Settles O54: a fault leaves I, and so does every effect but those of its writers, FX55 and FX65 with
their quirk among them. -/
theorem indexWrittenOnlyByItsInstructions : Obligations.IndexWrittenOnlyByItsInstructions := by
  intro i s t h hne
  rcases exec_next_cases h with ⟨k, -, rfl⟩ | ⟨-, rfl⟩
  · exact absurd (s.execFault_idx k i) hne
  · cases i with
    | ldI nnn => exact .inl ⟨nnn, rfl⟩
    | addI x => exact .inr (.inl ⟨x, rfl⟩)
    | ldF x => exact .inr (.inr (.inl ⟨x, rfl⟩))
    | stRegs x => exact .inr (.inr (.inr (.inl ⟨State.quirk_of_bumpedI_ne hne, x, rfl⟩)))
    | ldRegs x => exact .inr (.inr (.inr (.inr ⟨State.quirk_of_bumpedI_ne hne, x, rfl⟩)))
    | _ => exact absurd rfl hne

/-! ### The call stack (R31) -/

/-- Without a fault there was room for a push, and an entry for a pop (R202, R203). -/
theorem State.sp_lt_of_faultOf_call {s : State} {nnn : BitVec 12} (h : s.faultOf (.call nnn) = none) :
    s.sp.val < 16 := by
  have hne : s.sp.val ≠ 16 := by simpa [State.faultOf] using h
  omega

theorem State.sp_pos_of_faultOf_ret {s : State} (h : s.faultOf .ret = none) : 0 < s.sp.val := by
  have hne : s.sp.val ≠ 0 := by simpa [State.faultOf] using h
  omega

theorem State.pushed_get_of_ne (s : State) (w : Word) {k : Fin 16} (hk : k.val ≠ s.sp.val) :
    (s.stack.setIfInBounds s.sp.val w).get k = s.stack.get k :=
  Vector.getElem_setIfInBounds_ne k.isLt hk.symm

/-- An effect leaves SP and the stack, but for the push of 2NNN and the pop of 00EE. -/
theorem effect_calls {i : Instr} {s : State} (hnone : s.faultOf i = none) :
    ((s.effect i).sp = s.sp ∧ (s.effect i).stack = s.stack) ∨
    ((∃ nnn, i = .call nnn) ∧ (s.effect i).sp.val = s.sp.val + 1 ∧
      ∀ k : Fin 16, k.val ≠ s.sp.val → (s.effect i).stack.get k = s.stack.get k) ∨
    (i = .ret ∧ (s.effect i).sp.val + 1 = s.sp.val ∧ (s.effect i).stack = s.stack) := by
  cases i with
  | call nnn =>
    have hsp := State.sp_lt_of_faultOf_call hnone
    refine .inr (.inl ⟨⟨nnn, rfl⟩, ?_, fun k hk => s.pushed_get_of_ne s.pc hk⟩)
    show min (s.sp.val + 1) 16 = s.sp.val + 1
    omega
  | ret =>
    have hsp := State.sp_pos_of_faultOf_ret hnone
    refine .inr (.inr ⟨rfl, ?_, rfl⟩)
    show s.sp.val - 1 + 1 = s.sp.val
    omega
  | _ => exact .inl ⟨rfl, rfl⟩

/-! ### The fault latch (R207) -/

/-- An effect leaves the latch. -/
theorem effect_latch (s : State) (i : Instr) :
    (s.effect i).halted = s.halted ∧ (s.effect i).fcause = s.fcause ∧ (s.effect i).fpc = s.fpc ∧
      (s.effect i).fop = s.fop := by
  cases i with
  | _ => exact ⟨rfl, rfl, rfl, rfl⟩

/-- Settles O55: a fault leaves SP and the stack, an effect changes them as `effect_calls` says, and it does
not halt the machine. -/
theorem onlyCallPushesOnlyReturnPops : Obligations.OnlyCallPushesOnlyReturnPops := by
  intro i s t h
  rcases exec_next_cases h with ⟨k, -, rfl⟩ | ⟨hnone, rfl⟩
  · exact ⟨fun hne => absurd hne (by simp), fun _ _ => ⟨s.execFault_sp k i, s.execFault_stack k i⟩⟩
  · refine ⟨fun hne => (effect_calls hnone).resolve_left (by tauto), fun hrun hhalt => ?_⟩
    rw [(effect_latch s i).1, hrun] at hhalt
    cases hhalt

/-! ### Display, memory, wait, and what only the host writes (R36, R39, R72, R180) -/

theorem effect_display (s : State) (i : Instr) :
    ((s.effect i).fb = s.fb ∧ (s.effect i).dirty = s.dirty ∧ (s.effect i).frameEvents = s.frameEvents) ∨
    i = .cls ∨ ∃ x y n, i = .drw x y n := by
  cases i with
  | cls => exact .inr (.inl rfl)
  | drw x y n => exact .inr (.inr ⟨x, y, n, rfl⟩)
  | _ => exact .inl ⟨rfl, rfl, rfl⟩

theorem effect_mem (s : State) (i : Instr) : (s.effect i).mem = s.mem ∨ ∃ x, i = .ldB x ∨ i = .stRegs x := by
  cases i with
  | ldB x => exact .inr ⟨x, .inl rfl⟩
  | stRegs x => exact .inr ⟨x, .inr rfl⟩
  | _ => exact .inl rfl

theorem effect_wait (s : State) (i : Instr) :
    ((s.effect i).wait = s.wait ∧ (s.effect i).waitX = s.waitX) ∨ ∃ x, i = .ldVxK x := by
  cases i with
  | ldVxK x => exact .inr ⟨x, rfl⟩
  | _ => exact .inl ⟨rfl, rfl⟩

theorem effect_host (s : State) (i : Instr) :
    (s.effect i).q = s.q ∧ (s.effect i).keys = s.keys ∧ (s.effect i).pending = s.pending := by
  cases i with
  | _ => exact ⟨rfl, rfl, rfl⟩

/-- Settles O57: a fault changes none of these fields, and `effect_display`, `effect_mem`, `effect_wait` and
`effect_host` name who does. -/
theorem displayMemoryAndWaitWriters : Obligations.DisplayMemoryAndWaitWriters := by
  intro i s t h
  rcases exec_next_cases h with ⟨k, -, rfl⟩ | ⟨-, rfl⟩
  · simp
  · refine ⟨fun hne => (effect_display s i).resolve_left ?_, fun hne => (effect_mem s i).resolve_left hne,
      fun hne => (effect_wait s i).resolve_left ?_, effect_host s i⟩
    · tauto
    · tauto

/-! ### What no instruction reads (R32, R36, R40) -/

/-- An effect is the same under other quirk flags, but for those its instruction reads. -/
theorem effect_quirks {i : Instr} {s : State} {q : Quirks}
    (hrs : (∃ x y, i = .shr x y) → q.rs = s.q.rs) (hls : (∃ x y, i = .shl x y) → q.ls = s.q.ls)
    (hjo : (∃ nnn, i = .jpV0 nnn) → q.jo = s.q.jo) (hsi : (∃ x, i = .stRegs x) → q.si = s.q.si)
    (hli : (∃ x, i = .ldRegs x) → q.li = s.q.li) :
    { s with q := q }.effect i = { s.effect i with q := q } := by
  cases i with
  | shr x y => simp only [State.effect, hrs ⟨x, y, rfl⟩]; rfl
  | shl x y => simp only [State.effect, hls ⟨x, y, rfl⟩]; rfl
  | jpV0 nnn => simp only [State.effect, hjo ⟨nnn, rfl⟩]; rfl
  | stRegs x => simp only [State.effect, hsi ⟨x, rfl⟩]; rfl
  | ldRegs x => simp only [State.effect, hli ⟨x, rfl⟩]; rfl
  | _ => rfl

/-- Settles O58: a fault is told without the flags, and an effect reads only its own. -/
theorem quirkFlagsAreIndependent : Obligations.QuirkFlagsAreIndependent := by
  intro i s t q hrs hls hjo hsi hli h
  rcases exec_next_cases h with ⟨k, hk, rfl⟩ | ⟨hk, rfl⟩
  · exact exec_of_fault hk
  · rw [← effect_quirks hrs hls hjo hsi hli]
    exact exec_of_no_fault hk

/-- Settles O59: a fault is told without DIRTY and ST, and an effect reads neither, instruction by
instruction. -/
theorem dirtyAndSoundTimerAreNeverRead : Obligations.DirtyAndSoundTimerAreNeverRead := by
  intro i s t d b h
  rcases exec_next_cases h with ⟨k, hk, rfl⟩ | ⟨hk, rfl⟩
  · exact ⟨_, exec_of_fault hk, rfl⟩
  · refine ⟨_, exec_of_no_fault hk, ?_⟩
    cases i <;> rfl

end Sys2Proof.Machine
end

section
/-! One step: the Step of the instruction engine and the host's events one by one (60_exceptions.md R207,
R216 to R221; 45_keypad_timer.md R184, R185). -/

namespace Sys2Proof.Machine

/-! ### How a Step goes -/

theorem instrStep_halted {s : State} (hhalt : s.halted = true) : instrStep s = .next s := by
  rcases instrStep_cases s with ⟨-, he⟩ | ⟨hrun, -⟩ | ⟨hrun, -⟩ | ⟨hrun, -⟩
  · exact he
  all_goals cases hhalt.symm.trans hrun

theorem instrStep_waiting {s : State} (hwait : s.wait = true) : instrStep s = .next s := by
  rcases instrStep_cases s with ⟨-, he⟩ | ⟨-, -, he⟩ | ⟨-, hrun, -⟩ | ⟨-, hrun, -⟩
  · exact he
  · exact he
  all_goals cases hwait.symm.trans hrun

section
variable {s : State}

/-- Neither halted nor waiting: a Step fetches, or raises FetchBounds. -/
theorem instrStep_running (hhalt : s.halted = false) (hwait : s.wait = false) :
    (0xFFE < s.pc.toNat ∧ instrStep s = .next (s.raiseFault .fetchBounds s.pc 0)) ∨
    (s.pc.toNat ≤ 0xFFE ∧ instrStep s = exec (decode s.fetchWord) (s.setPc (s.pc + 2))) := by
  rcases instrStep_cases s with ⟨h, -⟩ | ⟨-, h, -⟩ | ⟨-, -, hpc, he⟩ | ⟨-, -, hpc, he⟩
  · cases hhalt.symm.trans h
  · cases hwait.symm.trans h
  · exact .inl ⟨hpc, he⟩
  · exact .inr ⟨hpc, he⟩

theorem instrStep_past (hhalt : s.halted = false) (hwait : s.wait = false) (hpc : 0xFFE < s.pc.toNat) :
    instrStep s = .next (s.raiseFault .fetchBounds s.pc 0) := by
  rcases instrStep_running hhalt hwait with ⟨-, he⟩ | ⟨hle, -⟩
  · exact he
  · omega

theorem instrStep_fetch (hhalt : s.halted = false) (hwait : s.wait = false) (hpc : s.pc.toNat ≤ 0xFFE) :
    instrStep s = exec (decode s.fetchWord) (s.setPc (s.pc + 2)) := by
  rcases instrStep_running hhalt hwait with ⟨hlt, -⟩ | ⟨-, he⟩
  · omega
  · exact he

end

/-- Settles O11: `instrStep_fetch` and `instrStep_past`. -/
theorem stepRunsDecodedInstruction : Obligations.StepRunsDecodedInstruction := by
  intro s hnone hhalt hwait
  rw [step_no_event s hnone]
  exact ⟨instrStep_fetch hhalt hwait, instrStep_past hhalt hwait⟩

/-! ### The schedule is not read by a Step (log entry 4) -/

theorem effect_setPending (s : State) (es : List HostEvent) (i : Instr) :
    (s.setPending es).effect i = (s.effect i).setPending es := by
  cases i <;> rfl

theorem exec_setPending {i : Instr} {s t : State} (es : List HostEvent) (h : exec i s = .next t) :
    exec i (s.setPending es) = .next (t.setPending es) := by
  rcases exec_next_cases h with ⟨k, hk, rfl⟩ | ⟨hk, rfl⟩
  · exact exec_of_fault hk
  · rw [← effect_setPending]
    exact exec_of_no_fault hk

theorem instrStep_setPending {s t : State} (es : List HostEvent) (h : instrStep s = .next t) :
    instrStep (s.setPending es) = .next (t.setPending es) := by
  rcases instrStep_cases s with ⟨hhalt, he⟩ | ⟨-, hwait, he⟩ | ⟨hhalt, hwait, hpc, he⟩ |
    ⟨hhalt, hwait, hpc, he⟩
  · obtain rfl := next_unique h he
    exact instrStep_halted hhalt
  · obtain rfl := next_unique h he
    exact instrStep_waiting hwait
  · obtain rfl := next_unique h he
    exact instrStep_past hhalt hwait hpc
  · rw [instrStep_fetch (s := s.setPending es) hhalt hwait hpc]
    exact exec_setPending es (he.symm.trans h)

/-- Settles O12: what a Step does is the same under every schedule (`instrStep_setPending`). -/
theorem stepEventIsAStep : Obligations.StepEventIsAStep := by
  intro s es t hstep h
  rw [step_no_event _ rfl] at h
  rw [step_step s es hstep]
  exact instrStep_setPending (s := s.setPending []) es h

/-! ### Every step answers -/

theorem instrStep_next (s : State) : ∃ t, instrStep s = .next t := by
  rcases instrStep_cases s with ⟨-, he⟩ | ⟨-, -, he⟩ | ⟨-, -, -, he⟩ | ⟨-, -, -, he⟩
  · exact ⟨_, he⟩
  · exact ⟨_, he⟩
  · exact ⟨_, he⟩
  · rcases exec_cases (decode s.fetchWord) (s.setPc (s.pc + 2)) with ⟨_, -, hexec⟩ | ⟨-, hexec⟩
    · exact ⟨_, he.trans hexec⟩
    · exact ⟨_, he.trans hexec⟩

theorem step_reset_admitted {s : State} {font : Font} {rom : List Byte} {q : Quirks} {es : List HostEvent}
    (h : s.pending = .reset font rom q :: es) (hrom : rom.length ≤ 3584) :
    step s = .next ((s.setPending es).resetEvent font rom q) := by
  rw [step_reset s font rom q es h]
  exact if_pos hrom

theorem step_reset_refused {s : State} {font : Font} {rom : List Byte} {q : Quirks} {es : List HostEvent}
    (h : s.pending = .reset font rom q :: es) (hrom : 3584 < rom.length) : step s = .refused .romTooLong := by
  rw [step_reset s font rom q es h]
  exact if_neg (Nat.not_le.mpr hrom)

/-- Settles O22: `step_reset_refused`, and an admitted ROM is loaded. -/
theorem overlongRomIsRefused : Obligations.OverlongRomIsRefused := by
  refine fun s font rom q es h => ⟨step_reset_refused h, fun hrefused => ?_⟩
  by_contra hrom
  cases hrefused.symm.trans (step_reset_admitted h (Nat.not_lt.mp hrom))

/-- Settles O13: event by event; a Step answers by `instrStep_next`. -/
theorem everyStepAnswers : Obligations.EveryStepAnswers := by
  intro s
  match h : s.pending with
  | [] =>
    rw [step_no_event s h]
    exact .inl (instrStep_next s)
  | .step :: es =>
    rw [step_step s es h]
    exact .inl (instrStep_next _)
  | .tick :: es => exact .inl ⟨_, step_tick s es h⟩
  | .keyDown k :: es => exact .inl ⟨_, step_keyDown s k es h⟩
  | .keyUp k :: es => exact .inl ⟨_, step_keyUp s k es h⟩
  | .presentAck :: es => exact .inl ⟨_, step_presentAck s es h⟩
  | .reset font rom q :: es =>
    by_cases hrom : rom.length ≤ 3584
    · exact .inl ⟨_, step_reset_admitted h hrom⟩
    · have hlong := Nat.not_le.mp hrom
      exact .inr ⟨font, rom, q, es, rfl, hlong, step_reset_refused h hlong⟩

/-- The cases of the state a step answers (R216). -/
theorem step_next_cases {s t : State} (h : step s = .next t) :
    (s.pending = [] ∧ instrStep s = .next t) ∨
    (∃ es, s.pending = .step :: es ∧ instrStep (s.setPending es) = .next t) ∨
    (∃ es, s.pending = .tick :: es ∧ t = (s.setPending es).tick) ∨
    (∃ k es, s.pending = .keyDown k :: es ∧ t = (s.setPending es).keyDown k) ∨
    (∃ k es, s.pending = .keyUp k :: es ∧ t = (s.setPending es).keyUp k) ∨
    (∃ es, s.pending = .presentAck :: es ∧ t = (s.setPending es).presentAck) ∨
    (∃ font rom q es, s.pending = .reset font rom q :: es ∧ rom.length ≤ 3584 ∧
      t = (s.setPending es).resetEvent font rom q) := by
  have answer {u : State} (hu : step s = .next u) : t = u := next_unique h hu
  match hp : s.pending with
  | [] => exact .inl ⟨rfl, (step_no_event s hp).symm.trans h⟩
  | .step :: es => exact .inr (.inl ⟨es, rfl, (step_step s es hp).symm.trans h⟩)
  | .tick :: es => exact .inr (.inr (.inl ⟨es, rfl, answer (step_tick s es hp)⟩))
  | .keyDown k :: es => exact .inr (.inr (.inr (.inl ⟨k, es, rfl, answer (step_keyDown s k es hp)⟩)))
  | .keyUp k :: es => exact .inr (.inr (.inr (.inr (.inl ⟨k, es, rfl, answer (step_keyUp s k es hp)⟩))))
  | .presentAck :: es => exact .inr (.inr (.inr (.inr (.inr (.inl ⟨es, rfl, answer (step_presentAck s es hp)⟩)))))
  | .reset font rom q :: es =>
    by_cases hrom : rom.length ≤ 3584
    · exact .inr (.inr (.inr (.inr (.inr (.inr
        ⟨font, rom, q, es, rfl, hrom, answer (step_reset_admitted hp hrom)⟩)))))
    · cases h.symm.trans (step_reset_refused hp (Nat.not_le.mp hrom))

/-! ### The result of a Step (R15) -/

theorem State.stepResult_halted {s : State} (h : s.halted = true) : s.stepResult = .fault s.fcause := by
  rw [State.stepResult, if_pos h]

theorem State.stepResult_running {s : State} (h : s.halted = false) :
    s.stepResult = if s.wait = true then .waiting else .done := by
  simp [State.stepResult, h]

/-- Every instruction but FX0A leaves WAIT. -/
theorem exec_wait {i : Instr} {s t : State} (h : exec i s = .next t) (hi : ∀ x, i ≠ .ldVxK x) :
    t.wait = s.wait := by
  rcases exec_next_cases h with ⟨k, -, rfl⟩ | ⟨-, rfl⟩
  · rfl
  · rcases effect_wait s i with ⟨hwait, -⟩ | ⟨x, rfl⟩
    · exact hwait
    · exact absurd rfl (hi x)

theorem exec_ldVxK (x : Reg) (s : State) : exec (.ldVxK x) s = .next (s.setWait true x) := rfl

/-- Settles O14: the four ways a Step goes (`instrStep_cases`), FX0A told from the other instructions by
`exec_wait`. -/
theorem stepResults : Obligations.StepResults := by
  intro s hnone
  rw [step_no_event s hnone]
  obtain ⟨t, ht⟩ := instrStep_next s
  refine ⟨t, ht, fun hhalt => ?_, fun hhalt hwait => ?_, fun _ _ hhalt => t.stepResult_halted hhalt,
    fun hhalt hwait hrun ⟨x, hx⟩ => ?_, fun hhalt hwait hrun hx => ?_⟩
  · obtain rfl := next_unique (instrStep_halted hhalt) ht
    exact ⟨rfl, s.stepResult_halted hhalt⟩
  · obtain rfl := next_unique (instrStep_waiting hwait) ht
    exact ⟨rfl, by rw [State.stepResult_running hhalt, if_pos hwait]⟩
  · rcases instrStep_running hhalt hwait with ⟨-, he⟩ | ⟨-, he⟩
    · obtain rfl := next_unique he ht
      cases hrun
    · rw [he, hx, exec_ldVxK] at ht
      obtain rfl := Host.Outcome.next.inj ht
      rw [State.stepResult_running hrun, State.setWait_wait, if_pos rfl]
  · rcases instrStep_running hhalt hwait with ⟨-, he⟩ | ⟨-, he⟩
    · obtain rfl := next_unique he ht
      cases hrun
    · have hsame : t.wait = s.wait := exec_wait (s := s.setPc (s.pc + 2)) (he.symm.trans ht) hx
      rw [State.stepResult_running hrun, hsame, hwait]
      rfl

end Sys2Proof.Machine
end

section
/-! The host's events (60_exceptions.md R216 to R221), and the waiting and the halted machine, which go on
taking them (45_keypad_timer.md R184, R185; 60_exceptions.md R207). -/

namespace Sys2Proof.Machine

/-! ### Ticks (R186, R218) -/

theorem State.tick_dt_toNat (s : State) : s.tick.dt.toNat = s.dt.toNat - 1 := countDown_toNat s.dt

theorem State.tick_st_toNat (s : State) : s.tick.st.toNat = s.st.toNat - 1 := countDown_toNat s.st

/-- Settles O15: `countDown_toNat` for each timer. -/
theorem tickCountsDown : Obligations.TickCountsDown := fun s es h =>
  ⟨_, step_tick s es h, (s.setPending es).tick_dt_toNat, (s.setPending es).tick_st_toNat, rfl, rfl⟩

theorem run_succ_of_step {s t : State} (n : Nat) (h : step s = .next t) :
    Sys2Proof.core.run (n + 1) s = Sys2Proof.core.run n t := by
  have hcore : Sys2Proof.core.step s = .next t := h
  simp only [Host.Core.run, hcore]

/-- Settles O16: by induction on n, one Tick at a time. -/
theorem timersRunOutAfterNTicks : Obligations.TimersRunOutAfterNTicks := by
  intro n
  induction n with
  | zero => exact fun s es h => ⟨s, rfl, rfl, rfl, rfl, h⟩
  | succ n ih =>
    intro s es h
    rw [List.replicate_succ, List.cons_append] at h
    have htick := step_tick s _ h
    obtain ⟨t, hrun, hdt, hst, hframe, hpending⟩ :=
      ih (s.setPending (List.replicate n .tick ++ es)).tick es rfl
    rw [State.tick_dt_toNat, State.setPending_dt] at hdt
    rw [State.tick_st_toNat, State.setPending_st] at hst
    refine ⟨t, (run_succ_of_step n htick).trans hrun, by omega, by omega, ?_, hpending⟩
    exact congrArg (fun u : State => { u with dt := s.dt, st := s.st, pending := s.pending }) hframe

/-! ### Keys (R185, R219) -/

theorem byte_ofNat_toNat {n : Nat} (hn : n < 256) : (BitVec.ofNat 8 n).toNat = n := by
  rw [BitVec.toNat_ofNat]
  exact Nat.mod_eq_of_lt hn

section
variable {s : State} {k : Key} {es : List HostEvent}

theorem step_keyDown_running (hwait : s.wait = false) (h : s.pending = .keyDown k :: es) :
    step s = .next ((s.setPending es).setKey k true) := by
  rw [step_keyDown s k es h, State.keyDown_running (s.setPending es) k hwait]

theorem step_keyDown_waiting (hwait : s.wait = true) (h : s.pending = .keyDown k :: es) :
    step s = .next ((((s.setPending es).setKey k true).setV s.waitX (BitVec.ofNat 8 k.val)).setWait false
      s.waitX) := by
  rw [step_keyDown s k es h, State.keyDown_waiting (s.setPending es) k hwait]
  rfl

theorem keyDown_running (hwait : s.wait = false) (h : s.pending = .keyDown k :: es) :
    ∃ t, step s = .next t ∧ (∀ c, t.getKey c = if c = k then true else s.getKey c) ∧
      { t with keys := s.keys, pending := s.pending } = s ∧ t.pending = es :=
  ⟨_, step_keyDown_running hwait h, fun _ => State.getKey_setKey .., rfl, rfl⟩

theorem keyDown_waiting (hwait : s.wait = true) (h : s.pending = .keyDown k :: es) :
    ∃ t, step s = .next t ∧ t.wait = false ∧ (t.getV s.waitX).toNat = k.val ∧
      (∀ c, t.getKey c = if c = k then true else s.getKey c) ∧ (∀ r, r ≠ s.waitX → t.getV r = s.getV r) ∧
      { t with keys := s.keys, pending := s.pending, v := s.v, wait := s.wait } = s ∧ t.pending = es := by
  refine ⟨_, step_keyDown_waiting hwait h, rfl, ?_, fun _ => State.getKey_setKey .., fun r hr => ?_, rfl, rfl⟩
  · rw [State.setWait_getV, State.getV_setV, if_pos rfl]
    exact byte_ofNat_toNat (by omega)
  · rw [State.setWait_getV, State.getV_setV, if_neg hr, State.setKey_getV, State.setPending_getV]

theorem keyUp_event (h : s.pending = .keyUp k :: es) :
    ∃ t, step s = .next t ∧ (∀ c, t.getKey c = if c = k then false else s.getKey c) ∧
      { t with keys := s.keys, pending := s.pending } = s ∧ t.pending = es :=
  ⟨_, step_keyUp s k es h, fun _ => State.getKey_setKey .., rfl, rfl⟩

end

/-- Settles O17: `keyDown_running`, `keyDown_waiting` and `keyUp_event`. -/
theorem keyEvents : Obligations.KeyEvents := by
  refine fun s k es => ⟨fun h => ?_, fun h => ?_⟩
  · cases hwait : s.wait with
    | false =>
      obtain ⟨t, ht, hkeys, hframe, hpending⟩ := keyDown_running hwait h
      exact ⟨t, ht, hkeys, hpending, fun _ => hframe, nofun⟩
    | true =>
      obtain ⟨t, ht, hended, hvx, hkeys, hregs, hframe, hpending⟩ := keyDown_waiting hwait h
      exact ⟨t, ht, hkeys, hpending, nofun, fun _ => ⟨hended, hvx, hregs, hwait ▸ hframe⟩⟩
  · obtain ⟨t, ht, hkeys, hframe, hpending⟩ := keyUp_event h
    exact ⟨t, ht, hkeys, hpending, hframe⟩

/-! ### The waiting machine (R184, R185) -/

/-- Settles O18: the clauses in order; in (c) the first KeyDown leaves a state outside a wait, in which the
second sets its key only. -/
theorem waitingMachine : Obligations.WaitingMachine := by
  intro s
  refine ⟨fun hhalt hwait hnone => ⟨?_, ?_⟩, fun es hhalt hwait h => ?_, fun es hwait h => ?_,
    fun k k' es hwait h => ?_, fun k es hwait h => ?_, fun k es h => ?_, fun font rom q es h hrom => ?_,
    fun es h => step_presentAck s es h⟩
  · rw [step_no_event s hnone, instrStep_waiting hwait]
  · rw [State.stepResult_running hhalt, if_pos hwait]
  · exact (step_step s es h).trans (instrStep_waiting (s := s.setPending es) hwait)
  · obtain ⟨t, ht, hdt, hst, hframe, -⟩ := tickCountsDown s es h
    exact ⟨t, ht, (congrArg State.wait hframe).trans hwait, (congrArg State.waitX hframe :), hdt, hst, hframe⟩
  · obtain ⟨t, ht, hended, hvx, hkeys, hregs, hframe, hpending⟩ := keyDown_waiting hwait h
    obtain ⟨u, hu, hukeys, huframe, -⟩ := keyDown_running hended hpending
    exact ⟨t, u, ht, hended, (congrArg State.waitX hframe :), hvx, hkeys, hregs, hframe, hu, hukeys, huframe⟩
  · obtain ⟨t, ht, hkeys, hframe, -⟩ := keyDown_running hwait h
    exact ⟨t, ht, hkeys, hframe⟩
  · obtain ⟨t, ht, hkeys, hframe, -⟩ := keyUp_event h
    exact ⟨t, ht, hkeys, hframe⟩
  · exact ⟨_, step_reset_admitted h hrom, rfl⟩

/-- Settles O51: FX0A is one `setWait`; then `instrStep_waiting` for a Step and `keyDown_waiting` for the
KeyDown that ends the wait. -/
theorem keyWait : Obligations.KeyWait := by
  intro x s
  refine ⟨decode_encode_of_ne_undef (i := .ldVxK x) nofun, s.setWait true x, exec_ldVxK x s, rfl, rfl, rfl,
    fun _ => rfl, fun hhalt => ?_, fun _ hnone => ?_, fun k es h => ?_⟩
  · exact (State.stepResult_running (s := s.setWait true x) hhalt).trans (if_pos rfl)
  · rw [step_no_event (s.setWait true x) hnone, instrStep_waiting rfl]
  · obtain ⟨u, hu, hended, hvx, -, -, hframe, -⟩ := keyDown_waiting (s := s.setWait true x) rfl h
    exact ⟨u, hu, hended, hvx, (congrArg State.pc hframe :)⟩

/-! ### The halted machine (R207, R209) -/

/-- Settles O19: each event in turn; none but Reset touches the latch. -/
theorem haltedMachine : Obligations.HaltedMachine := by
  intro s hhalt hwait
  refine ⟨s.stepResult_halted hhalt, fun hnone => ?_, fun es h => ?_, fun es h => ?_,
    fun k es h => ?_, fun k es h => ?_, fun es h => step_presentAck s es h, fun font rom q es h hrom => ?_⟩
  · rw [step_no_event s hnone, instrStep_halted hhalt]
  · exact (step_step s es h).trans (instrStep_halted (s := s.setPending es) hhalt)
  · obtain ⟨t, ht, hdt, hst, hframe, -⟩ := tickCountsDown s es h
    exact ⟨t, ht, hdt, hst, hframe⟩
  · obtain ⟨t, ht, hkeys, hframe, -⟩ := keyDown_running hwait h
    exact ⟨t, ht, hkeys, hframe⟩
  · obtain ⟨t, ht, hkeys, hframe, -⟩ := keyUp_event h
    exact ⟨t, ht, hkeys, hframe⟩
  · exact ⟨_, step_reset_admitted h hrom, rfl, rfl, rfl, rfl⟩

/-- Settles O20: a halted machine is not waiting, so a KeyDown sets its key only, and every other event but
Reset leaves the frozen fields by definition. -/
theorem haltedStateIsFrozenUntilReset : Obligations.HaltedStateIsFrozenUntilReset := by
  intro s t hinv hhalt hreset h
  have hwait : s.wait = false := Bool.eq_false_iff.mpr fun hwait => hinv.notBoth ⟨hwait, hhalt⟩
  rcases step_next_cases h with ⟨-, he⟩ | ⟨es, -, he⟩ | ⟨es, -, rfl⟩ | ⟨k, es, -, rfl⟩ | ⟨k, es, -, rfl⟩ |
    ⟨es, -, rfl⟩ | ⟨font, rom, q, es, hp, -⟩
  · obtain rfl := next_unique (instrStep_halted hhalt) he
    rfl
  · obtain rfl := next_unique (instrStep_halted (s := s.setPending es) hhalt) he
    rfl
  · rfl
  · rw [State.keyDown_running (s.setPending es) k hwait]
    rfl
  · rfl
  · rfl
  · exact absurd hp (hreset font rom q es)

end Sys2Proof.Machine
end

section
/-! What holds along a run: faults are precise (60_exceptions.md R201, R206, R210), and every step keeps the
invariant of the reachable states (10_state.md R46). -/

namespace Sys2Proof.Machine

/-! ### Faults (R201 to R206) -/

/-- The faults of the execution, each with its instructions and their condition. -/
theorem State.faultOf_cases {s : State} {i : Instr} {k : FaultKind} (h : s.faultOf i = some k) :
    (k = .stackOverflow ∧ s.sp.val = 16 ∧ ∃ nnn, i = .call nnn) ∨
    (k = .stackUnderflow ∧ s.sp.val = 0 ∧ i = .ret) ∨
    (k = .dataBounds ∧
      ((∃ x y n, i = .drw x y n ∧ 1 ≤ n.val ∧ 0xFFF < s.dataAddr (n.val - 1)) ∨
       (∃ x, i = .ldB x ∧ 0xFFF < s.dataAddr 2) ∨
       (∃ x, i = .stRegs x ∧ 0xFFF < s.dataAddr x.val) ∨
       (∃ x, i = .ldRegs x ∧ 0xFFF < s.dataAddr x.val))) := by
  cases i with
  | call nnn =>
    obtain ⟨hsp, ⟨⟩⟩ := Option.ite_none_right_eq_some.mp h
    exact .inl ⟨rfl, hsp, nnn, rfl⟩
  | ret =>
    obtain ⟨hsp, ⟨⟩⟩ := Option.ite_none_right_eq_some.mp h
    exact .inr (.inl ⟨rfl, hsp, rfl⟩)
  | drw x y n =>
    obtain ⟨⟨hn, hpast⟩, ⟨⟩⟩ := Option.ite_none_right_eq_some.mp h
    exact .inr (.inr ⟨rfl, .inl ⟨x, y, n, rfl, hn, hpast⟩⟩)
  | ldB x =>
    obtain ⟨hpast, ⟨⟩⟩ := Option.ite_none_right_eq_some.mp h
    exact .inr (.inr ⟨rfl, .inr (.inl ⟨x, rfl, hpast⟩)⟩)
  | stRegs x =>
    obtain ⟨hpast, ⟨⟩⟩ := Option.ite_none_right_eq_some.mp h
    exact .inr (.inr ⟨rfl, .inr (.inr (.inl ⟨x, rfl, hpast⟩))⟩)
  | ldRegs x =>
    obtain ⟨hpast, ⟨⟩⟩ := Option.ite_none_right_eq_some.mp h
    exact .inr (.inr ⟨rfl, .inr (.inr (.inr ⟨x, rfl, hpast⟩))⟩)
  | _ => cases h

/-- A fault that the instruction at PC raises latches its own address and opcode, and PC has advanced. -/
theorem State.fetched_execFault (s : State) (k : FaultKind) :
    (s.setPc (s.pc + 2)).execFault k (decode s.fetchWord) =
      { s with pc := s.pc + 2, halted := true, fcause := faultCode k, fpc := s.pc, fop := s.fetchWord } := by
  have haddr : (s.setPc (s.pc + 2)).instrAddr = s.pc := BitVec.add_sub_cancel s.pc 2
  rw [State.execFault, haddr, encode_decode]
  rfl

/-- Settles O26: a Step that halts the machine raised FetchBounds or a fault of the instruction at PC, whose
conditions are `faultOf_cases`. -/
theorem faultsArePreciseAndOnlyTheFour : Obligations.FaultsArePreciseAndOnlyTheFour := by
  intro s t hnone hrun h hhalt
  refine ⟨t.stepResult_halted hhalt, ?_⟩
  rw [step_no_event s hnone] at h
  rcases instrStep_cases s with ⟨hstop, -⟩ | ⟨-, -, he⟩ | ⟨-, -, hpc, he⟩ | ⟨-, -, hpc, he⟩
  · cases hrun.symm.trans hstop
  · obtain rfl := next_unique he h
    cases hrun.symm.trans hhalt
  · exact .inl ⟨hpc, (next_unique he h).symm⟩
  · rcases exec_next_cases (he.symm.trans h) with ⟨k, hk, rfl⟩ | ⟨-, rfl⟩
    · rw [State.fetched_execFault]
      refine .inr ⟨hpc, rfl, ?_⟩
      rcases State.faultOf_cases hk with ⟨rfl, hsp, hi⟩ | ⟨rfl, hsp, hi⟩ | ⟨rfl, hi⟩
      · exact .inl ⟨rfl, hsp, hi⟩
      · exact .inr (.inl ⟨rfl, hsp, hi⟩)
      · refine .inr (.inr ⟨rfl, hi.imp_left fun ⟨x, y, n, hdrw, hn, hpast⟩ => ⟨x, y, n, hdrw, hn, ?_⟩⟩)
        rw [State.dataAddr_eq, ← Nat.add_sub_assoc hn] at hpast
        exact hpast
    · rw [(effect_latch _ _).1] at hhalt
      cases hrun.symm.trans hhalt

/-! ### The invariant (R46) -/

/-- The invariant reads memory, the call stack, PC, WAIT and the latch only. -/
theorem State.Inv.congr {s t : State} (h : s.Inv) (hmem : t.mem = s.mem := by rfl)
    (hstack : t.stack = s.stack := by rfl) (hsp : t.sp = s.sp := by rfl) (hpc : t.pc = s.pc := by rfl)
    (hwait : t.wait = s.wait := by rfl) (hhalt : t.halted = s.halted := by rfl)
    (hfcause : t.fcause = s.fcause := by rfl) (hfpc : t.fpc = s.fpc := by rfl)
    (hfop : t.fop = s.fop := by rfl) : t.Inv where
  memCanonical := hmem ▸ h.memCanonical
  liveEntries := hstack ▸ hsp ▸ h.liveEntries
  pcRange := hpc ▸ h.pcRange
  notBoth := hwait ▸ hhalt ▸ h.notBoth
  latchClear := hhalt ▸ hfcause ▸ hfpc ▸ hfop ▸ h.latchClear
  latchCode := hhalt ▸ hfcause ▸ h.latchCode

theorem faultCode_range (k : FaultKind) : 1 ≤ (faultCode k).toNat ∧ (faultCode k).toNat ≤ 4 := by
  cases k <;> decide

/-- A fault keeps the invariant of a machine that is not waiting: it loads one of the four codes. -/
theorem State.Inv.raiseFault {s : State} (h : s.Inv) (hwait : s.wait = false) (k : FaultKind) (a w : Word) :
    (s.raiseFault k a w).Inv where
  memCanonical := h.memCanonical
  liveEntries := h.liveEntries
  pcRange := h.pcRange
  notBoth := fun hboth => by cases hwait.symm.trans hboth.1
  latchClear := nofun
  latchCode := fun _ => faultCode_range k

/-- Memory stays canonical under an effect: the stores stay inside memory when they raise no fault. -/
theorem effect_mem_wf {s : State} {i : Instr} (hnone : s.faultOf i = none) (h : s.mem.wf = true) :
    (s.effect i).mem.wf = true := by
  cases i with
  | ldB x =>
    have hin : ¬ 0xFFF < s.dataAddr 2 := by simpa [State.faultOf] using hnone
    refine Memory.writeBytes_wf _ _ _ h ?_
    simp only [State.dataAddr_eq, decimalDigits, List.length_cons, List.length_nil, Config.memSize] at hin ⊢
    omega
  | stRegs x =>
    have hin : ¬ 0xFFF < s.dataAddr x.val := by simpa [State.faultOf] using hnone
    refine Memory.writeBytes_wf _ _ _ h ?_
    rw [State.regsUpTo_length]
    simp only [State.dataAddr_eq, Config.memSize] at hin ⊢
    omega
  | _ => exact h

theorem State.Inv.setPc {s : State} (h : s.Inv) {w : Word} (hw : w.toNat ≤ 0x10FE) : (s.setPc w).Inv where
  memCanonical := h.memCanonical
  liveEntries := h.liveEntries
  pcRange := hw
  notBoth := h.notBoth
  latchClear := h.latchClear
  latchCode := h.latchCode

/-- A skip goes 2 further at most. -/
theorem State.skipPc_le {s : State} (hpc : s.pc.toNat ≤ 0x1000) (c : Bool) : (s.skipPc c).toNat ≤ 0x10FE := by
  cases c with
  | true =>
    have hadd : (s.pc + 2).toNat = s.pc.toNat + 2 := BitVec.toNat_add_of_lt (by simp; omega)
    show (s.pc + 2).toNat ≤ 0x10FE
    omega
  | false => exact hpc.trans (by decide)

section
variable {s : State} {i : Instr}

/-- A push makes `npc` a live entry; a pop makes none. -/
theorem effect_liveEntries (hnone : s.faultOf i = none) (h : s.Inv) (hpc2 : 2 ≤ s.pc.toNat)
    (hpc : s.pc.toNat ≤ 0x1000) (k : Fin 16) (hk : k.val < (s.effect i).sp.val) :
    2 ≤ ((s.effect i).stack.get k).toNat ∧ ((s.effect i).stack.get k).toNat ≤ 0x1000 := by
  cases i with
  | call nnn =>
    have hlt : k.val < min (s.sp.val + 1) 16 := hk
    have hget : (s.effect (.call nnn)).stack.get k = (s.stack.setIfInBounds s.sp.val s.pc).get k := rfl
    by_cases htop : k.val = s.sp.val
    · have hnew : (s.stack.setIfInBounds s.sp.val s.pc).get k = s.pc := by
        rw [← htop]
        exact Vector.getElem_setIfInBounds_self k.isLt
      rw [hget, hnew]
      exact ⟨hpc2, hpc⟩
    · rw [hget, State.pushed_get_of_ne s s.pc htop]
      exact h.liveEntries k (by omega)
  | ret =>
    have hlt : k.val < s.sp.val - 1 := hk
    exact h.liveEntries k (by omega)
  | _ => exact h.liveEntries k hk

/-- PC stays within R27: a jump reaches NNN plus a byte at most, a return a live entry. -/
theorem effect_pc_le (hnone : s.faultOf i = none) (h : s.Inv) (hpc : s.pc.toNat ≤ 0x1000) :
    (s.effect i).pc.toNat ≤ 0x10FE := by
  cases i with
  | ret =>
    have hpos := State.sp_pos_of_faultOf_ret hnone
    have hlive : (s.stack.get s.top).toNat ≤ 0x1000 :=
      (h.liveEntries s.top (Nat.sub_lt hpos Nat.one_pos)).2
    exact hlive.trans (by decide)
  | jp nnn | call nnn =>
    have hnnn := nnn.isLt
    show (address nnn).toNat ≤ 0x10FE
    rw [address_toNat]
    omega
  | jpV0 nnn =>
    have hnnn := nnn.isLt
    have hoffset := (s.getV (offsetReg s.q.jo nnn)).isLt
    show (address nnn + zextByte (s.getV (offsetReg s.q.jo nnn))).toNat ≤ 0x10FE
    rw [address_add_zextByte_toNat]
    omega
  | seImm | sneImm | seReg | sneReg | skp | sknp => exact State.skipPc_le hpc _
  | _ => exact h.pcRange

/-- An effect keeps the invariant of a running machine with `npc` in PC. -/
theorem effect_inv (hnone : s.faultOf i = none) (h : s.Inv) (hrun : s.halted = false)
    (hpc2 : 2 ≤ s.pc.toNat) (hpc : s.pc.toNat ≤ 0x1000) : (s.effect i).Inv := by
  obtain ⟨hhalt, hfcause, hfpc, hfop⟩ := effect_latch s i
  rw [hrun] at hhalt
  exact
    { memCanonical := effect_mem_wf hnone h.memCanonical
      liveEntries := effect_liveEntries hnone h hpc2 hpc
      pcRange := effect_pc_le hnone h hpc
      notBoth := fun hboth => by cases hhalt.symm.trans hboth.2
      latchClear := fun _ => by
        rw [hfcause, hfpc, hfop]
        exact h.latchClear hrun
      latchCode := fun hstop => by cases hhalt.symm.trans hstop }

end

theorem instrStep_inv {s t : State} (h : s.Inv) (ht : instrStep s = .next t) : t.Inv := by
  rcases instrStep_cases s with ⟨-, he⟩ | ⟨-, -, he⟩ | ⟨-, hwait, -, he⟩ | ⟨hrun, hwait, hpc, he⟩
  · exact next_unique he ht ▸ h
  · exact next_unique he ht ▸ h
  · obtain rfl := next_unique he ht
    exact h.raiseFault hwait .fetchBounds s.pc 0
  · have hnpc : (s.pc + 2).toNat = s.pc.toNat + 2 := BitVec.toNat_add_of_lt (by simp; omega)
    have hfetched : (s.setPc (s.pc + 2)).Inv := h.setPc (by omega)
    rcases exec_next_cases (he.symm.trans ht) with ⟨k, -, rfl⟩ | ⟨hnone, rfl⟩
    · exact hfetched.raiseFault hwait k _ _
    · refine effect_inv hnone hfetched hrun ?_ ?_
      · rw [State.setPc_pc, hnpc]
        omega
      · rw [State.setPc_pc, hnpc]
        omega

/-! ### Events and Reset -/

theorem State.Inv.keyDown {s : State} (h : s.Inv) (k : Key) : (s.keyDown k).Inv := by
  cases hwait : s.wait with
  | false =>
    rw [State.keyDown_running s k hwait]
    exact h.congr
  | true =>
    rw [State.keyDown_waiting s k hwait]
    exact
      { memCanonical := h.memCanonical
        liveEntries := h.liveEntries
        pcRange := h.pcRange
        notBoth := nofun
        latchClear := h.latchClear
        latchCode := h.latchCode }

theorem reset_inv : State.reset.Inv where
  memCanonical := reset_mem_wf
  liveEntries := fun _ hk => absurd hk (Nat.not_lt_zero _)
  pcRange := by decide
  notBoth := nofun
  latchClear := fun _ => ⟨rfl, rfl, rfl⟩
  latchCode := nofun

theorem resetEvent_inv (s : State) (font : Font) {rom : List Byte} (q : Quirks) (hrom : rom.length ≤ 3584) :
    (s.resetEvent font rom q).Inv where
  memCanonical := resetMemory_wf font rom hrom
  liveEntries := reset_inv.liveEntries
  pcRange := reset_inv.pcRange
  notBoth := reset_inv.notBoth
  latchClear := reset_inv.latchClear
  latchCode := reset_inv.latchCode

/-- Settles O24: `reset_inv`. -/
theorem resetSatisfiesInvariant : Obligations.ResetSatisfiesInvariant := reset_inv

/-- Settles O25: a Step keeps it by `instrStep_inv`, the events field by field. -/
theorem stepKeepsInvariant : Obligations.StepKeepsInvariant := by
  intro s t hinv h
  rcases step_next_cases h with ⟨-, he⟩ | ⟨es, -, he⟩ | ⟨es, -, rfl⟩ | ⟨k, es, -, rfl⟩ | ⟨k, es, -, rfl⟩ |
    ⟨es, -, rfl⟩ | ⟨font, rom, q, es, -, hrom, rfl⟩
  · exact instrStep_inv hinv he
  · exact instrStep_inv (s := s.setPending es) hinv.congr he
  · exact hinv.congr
  · exact State.Inv.keyDown (s := s.setPending es) hinv.congr k
  · exact hinv.congr
  · exact hinv.congr
  · exact resetEvent_inv _ font q hrom

end Sys2Proof.Machine
end

section
/-! A parked machine stays parked (70_reset_and_hazards.md R263), and a word placed under the fetch is the one
that runs next (log entry 14). -/

namespace Sys2Proof.Machine

/-! ### Parked (R263 b) -/

section
variable {w : Word}

theorem address_setWidth (hw : w.toNat < 0x1000) : address (w.setWidth 12) = w := by
  refine BitVec.eq_of_toNat_eq ?_
  rw [address_toNat, BitVec.toNat_setWidth, Nat.mod_eq_of_lt hw]

theorem encode_jp_setWidth (hw : w.toNat < 0x1000) : encode (.jp (w.setWidth 12)) = 0x1000 ||| w := by
  refine BitVec.eq_of_toNat_eq ?_
  have hlow : (w.setWidth 12).toNat = w.toNat := (address_toNat _).symm.trans (congrArg _ (address_setWidth hw))
  rw [encode, wordNNN, BitVec.toNat_append, hlow, BitVec.toNat_or]
  rfl

end

theorem State.parked_iff (s : State) : s.parked = true ↔
    s.wait = false ∧ s.halted = false ∧ s.pc.toNat ≤ 0xFFE ∧ s.fetchWord = 0x1000 ||| s.pc := by
  simp [State.parked, State.fetchable, and_assoc]

/-- A parked machine fetches the jump to its own address, which puts PC back. -/
theorem instrStep_parked {s : State} (h : s.parked = true) : instrStep s = .next s := by
  obtain ⟨hwait, hhalt, hpc, hword⟩ := s.parked_iff.mp h
  have hlt : s.pc.toNat < 0x1000 := by omega
  rw [instrStep_fetch hhalt hwait hpc, hword, ← encode_jp_setWidth hlt,
    decode_encode_of_ne_undef (i := .jp (s.pc.setWidth 12)) nofun, exec_jp, address_setWidth hlt]
  rfl

/-- Settles O27: `instrStep_parked` for a Step; the other events touch none of what `parked_iff` reads, a
KeyDown because the machine is not waiting. -/
theorem parkedMachineStaysParked : Obligations.ParkedMachineStaysParked := by
  intro s h
  have hwait := (s.parked_iff.mp h).1
  refine ⟨fun hnone => ?_, fun e es hp hreset => ?_⟩
  · rw [step_no_event s hnone, instrStep_parked h]
  · cases e with
    | reset font rom q => exact absurd rfl (hreset font rom q)
    | step =>
      rw [step_step s es hp]
      exact ⟨_, instrStep_parked (s := s.setPending es) h, h⟩
    | tick => exact ⟨_, step_tick s es hp, h⟩
    | keyDown k => exact ⟨_, step_keyDown_running hwait hp, h⟩
    | keyUp k => exact ⟨_, step_keyUp s k es hp, h⟩
    | presentAck => exact ⟨_, step_presentAck s es hp, h⟩

/-! ### A placed word -/

theorem tableBytes_toNat (w : Word) : tableBytes 16 w.toNat = [hiByte w, loByte w] := by
  have hword : tableWord 16 w.toNat = w := by
    rw [tableWord, Nat.mod_eq_of_lt w.isLt, BitVec.ofNat_toNat, BitVec.setWidth_eq]
  rw [tableBytes, if_pos le_rfl, hword]

theorem State.readyToFetch_spec (s : State) :
    s.readyToFetch.pending = [] ∧ s.readyToFetch.halted = false ∧ s.readyToFetch.wait = false ∧
      s.readyToFetch.pc.toNat ≤ 0xFFE := by
  simp only [State.readyToFetch]
  split
  · rename_i hpc
    exact ⟨rfl, rfl, rfl, of_decide_eq_true hpc⟩
  · exact ⟨rfl, rfl, rfl, show (BitVec.ofNat 16 Config.progBase).toNat ≤ 0xFFE by decide⟩

theorem Memory.readWord_writeBytes (m : Memory) (a : Nat) (hi lo : Byte) :
    (m.writeBytes a [hi, lo]).readWord a = hi ++ lo := by
  have hhi : (m.writeBytes a [hi, lo]).read a = hi := m.read_writeBytes_inside [hi, lo] a 0 Nat.two_pos
  have hlo : (m.writeBytes a [hi, lo]).read (a + 1) = lo := m.read_writeBytes_inside [hi, lo] a 1 Nat.one_lt_two
  rw [Memory.readWord, hhi, hlo]

theorem State.withFetchWord_fetchWord (s : State) (w : Word) : (s.withFetchWord 16 w.toNat).fetchWord = w := by
  rw [State.withFetchWord, tableBytes_toNat]
  exact (Memory.readWord_writeBytes ..).trans (hiByte_append_loByte w)

/-- Settles O28: the state is ready to fetch, and the two bytes placed at PC are read back as the word. -/
theorem placedWordRunsNext : Obligations.PlacedWordRunsNext := by
  intro s w
  obtain ⟨hpending, hhalt, hwait, hpc⟩ := s.readyToFetch_spec
  generalize ht : s.withFetchWord 16 w.toNat = t
  have hpending : t.pending = [] := ht ▸ hpending
  have hhalt : t.halted = false := ht ▸ hhalt
  have hwait : t.wait = false := ht ▸ hwait
  have hpc : t.pc.toNat ≤ 0xFFE := ht ▸ hpc
  refine ⟨by simp [State.fetches, State.fetchable, hpending, hhalt, hwait, hpc], ?_⟩
  rw [step_no_event t hpending, instrStep_fetch hhalt hwait hpc, ← ht, s.withFetchWord_fetchWord w]

end Sys2Proof.Machine
end

section
/-! Main memory: the canonical form is the only one of its reads (20_memory.md R60), bytes stored are bytes
fetched (R69, R76), and what Reset loads (70_reset_and_hazards.md R240; 10_state.md R45). -/

namespace Sys2Proof.Machine

/-! ### The canonical form -/

/-- Below its first address a canonical memory reads as unlisted. -/
theorem Memory.read_of_lt_wfFrom {m : Memory} {lo a : Nat} (h : m.wfFrom lo = true) (ha : a < lo) :
    m.read a = unlisted a := by
  induction m generalizing lo with
  | nil => rfl
  | cons e m ih =>
    obtain ⟨k, c⟩ := e
    obtain ⟨hlo, -, -, hm⟩ := (Memory.wfFrom_cons ..).mp h
    rw [Memory.read, if_neg (by omega)]
    exact ih hm (by omega)

theorem Memory.read_cons_self (k : Nat) (c : Byte) (m : Memory) : Memory.read ((k, c) :: m) k = c := if_pos rfl

theorem Memory.read_cons_of_ne {k a : Nat} (c : Byte) (m : Memory) (h : k ≠ a) :
    Memory.read ((k, c) :: m) a = m.read a := if_neg h

/-- A canonical memory reads otherwise at its first address than one that begins above it. -/
theorem Memory.read_cons_ne_of_wfFrom {k : Nat} {c : Byte} {m m' : Memory} (hc : c ≠ unlisted k)
    (hm' : m'.wfFrom (k + 1) = true) : Memory.read ((k, c) :: m) k ≠ m'.read k := by
  rw [Memory.read_cons_self, Memory.read_of_lt_wfFrom hm' k.lt_succ_self]
  exact hc

/-- Two canonical memories with the same reads begin at the same address with the same byte, and so do what
follows. -/
theorem Memory.eq_of_wfFrom_of_reads {m m' : Memory} {lo : Nat} (h : m.wfFrom lo = true)
    (h' : m'.wfFrom lo = true) (hreads : ∀ a, a < Config.memSize → m.read a = m'.read a) : m = m' := by
  induction m generalizing m' lo with
  | nil =>
    cases m' with
    | nil => rfl
    | cons e' m' =>
      obtain ⟨-, hk', hc', -⟩ := (Memory.wfFrom_cons lo e'.1 e'.2 m').mp h'
      exact absurd (hreads e'.1 hk').symm (Memory.read_cons_ne_of_wfFrom hc' rfl)
  | cons e m ih =>
    obtain ⟨k, c⟩ := e
    obtain ⟨-, hk, hc, hm⟩ := (Memory.wfFrom_cons ..).mp h
    cases m' with
    | nil => exact absurd (hreads k hk) (Memory.read_cons_ne_of_wfFrom hc rfl)
    | cons e' m' =>
      obtain ⟨k', c'⟩ := e'
      obtain ⟨-, hk', hc', hm'⟩ := (Memory.wfFrom_cons ..).mp h'
      rcases Nat.lt_trichotomy k k' with hlt | rfl | hlt
      · have habove : Memory.wfFrom (k + 1) ((k', c') :: m') = true :=
          (Memory.wfFrom_cons ..).mpr ⟨hlt, hk', hc', hm'⟩
        exact absurd (hreads k hk) (Memory.read_cons_ne_of_wfFrom hc habove)
      · have hbyte := hreads k hk
        rw [Memory.read_cons_self, Memory.read_cons_self] at hbyte
        have htail : m = m' := ih hm hm' fun a ha => by
          by_cases hka : k = a
          · subst hka
            rw [Memory.read_of_lt_wfFrom hm k.lt_succ_self, Memory.read_of_lt_wfFrom hm' k.lt_succ_self]
          · rw [← Memory.read_cons_of_ne c m hka, hreads a ha, Memory.read_cons_of_ne c' m' hka]
        rw [hbyte, htail]
      · have habove : Memory.wfFrom (k' + 1) ((k, c) :: m) = true :=
          (Memory.wfFrom_cons ..).mpr ⟨hlt, hk, hc, hm⟩
        exact absurd (hreads k' hk').symm (Memory.read_cons_ne_of_wfFrom hc' habove)

/-- Settles O9: `eq_of_wfFrom_of_reads` from address 0. -/
theorem canonicalMemoriesAreEqualWhenReadsAre : Obligations.CanonicalMemoriesAreEqualWhenReadsAre :=
  fun _ _ h h' hreads => Memory.eq_of_wfFrom_of_reads h h' hreads

/-! ### Stored registers (R69, R76, R164) -/

theorem State.read_stored_reg (s : State) {x k : Reg} (hk : k ≤ x) :
    (s.mem.writeBytes (s.dataAddr 0) (s.regsUpTo x)).read (s.dataAddr k.val) = s.getV k := by
  have hlen : k.val < (s.regsUpTo x).length := by
    rw [State.regsUpTo_length]
    exact Nat.lt_succ_of_le hk
  rw [State.read_stored s _ k.val hlen, State.regsUpTo_getElem]

/-- Settles O10: the two bytes of the word are two registers stored. -/
theorem storedBytesAreFetched : Obligations.StoredBytesAreFetched := by
  intro x k k' s t hk' hle hin h
  have hnone : s.faultOf (.stRegs x) = none := if_neg (Nat.not_lt.mpr hin)
  obtain rfl := next_unique (exec_of_no_fault hnone) h
  have hnext : s.idx.toNat + k.val + 1 = s.dataAddr k'.val := by
    rw [State.dataAddr_eq, hk', Nat.add_assoc]
  have hk : k ≤ x := by
    show k.val ≤ x.val
    omega
  rw [State.effect, State.setI_mem, State.setMem_mem, Memory.readWord, hnext, ← State.dataAddr_eq,
    s.read_stored_reg hk, s.read_stored_reg (k := k') hle]

/-! ### Reset -/

theorem Memory.unlisted_outside_font {a : Nat} (h : ¬ inRange 0x050 80 a) : unlisted a = 0 := if_neg h

theorem resetMemory_font (font : Font) (rom : List Byte) (k : Fin 80) :
    (resetMemory font rom).read (0x050 + k.val) = font.get k := by
  have hk : k.val < font.toList.length := by simp
  rw [resetMemory, Memory.read_writeBytes_outside _ _ _ _ (by simp only [Config.progBase]; omega)]
  refine (Memory.read_writeBytes_inside font.toList [] Config.fontBase k.val hk).trans ?_
  simp [Vector.get_eq_getElem]

theorem resetMemory_rom (font : Font) (rom : List Byte) (k : Nat) (hk : k < rom.length) :
    (resetMemory font rom).read (0x200 + k) = rom[k] :=
  Memory.read_writeBytes_inside rom _ Config.progBase k hk

theorem resetMemory_elsewhere (font : Font) (rom : List Byte) (a : Nat) (hfont : ¬ inRange 0x050 80 a)
    (hrom : ¬ inRange 0x200 rom.length a) : (resetMemory font rom).read a = 0 := by
  have hlen : font.toList.length = 80 := by simp
  rw [resetMemory, Memory.read_writeBytes_outside rom _ Config.progBase a hrom,
    Memory.read_writeBytes_outside font.toList [] Config.fontBase a (by rw [hlen]; exact hfont),
    Memory.read_nil, Memory.unlisted_outside_font hfont]

theorem reset_getV (r : Reg) : State.reset.getV r = 0 := by
  simp [State.getV, State.reset, Vector.get_eq_getElem]

theorem reset_stack (k : Fin 16) : State.reset.stack.get k = 0 := by
  simp [State.reset, Vector.get_eq_getElem]

theorem reset_getKey (k : Key) : State.reset.getKey k = false := by
  simp [State.getKey, State.reset, Vector.get_eq_getElem]

theorem pixel_blankDisplay (y : Fin 32) (x : Fin 64) : pixel blankDisplay y x = false := by
  simp [pixel, blankDisplay, Vector.get_eq_getElem]

/-- Settles O21: memory by its three clauses, every other field by `State.resetEvent`. -/
theorem resetEventLoadsTheResetState : Obligations.ResetEventLoadsTheResetState :=
  fun _ font rom _ _ h hrom => ⟨_, step_reset_admitted h hrom, resetMemory_font font rom,
    resetMemory_rom font rom, resetMemory_elsewhere font rom, reset_getV, rfl, rfl, rfl, reset_stack, rfl, rfl,
    pixel_blankDisplay, rfl, rfl, rfl, rfl, rfl, rfl, rfl, rfl, rfl, rfl, rfl, rfl, rfl⟩

/-- Settles O23: the unlisted addresses read as the default FONT and as 0; every other field by
`State.reset`. -/
theorem resetStateValues : Obligations.ResetStateValues :=
  ⟨reset_getV, rfl, rfl, rfl, reset_stack, rfl, rfl, pixel_blankDisplay, rfl, rfl, rfl, rfl, rfl, rfl, rfl,
    by decide, fun _ h => Memory.unlisted_outside_font h, reset_getKey, rfl⟩

end Sys2Proof.Machine
end

section
/-! The call and the return 2NNN and 00EE (40_flow.md R120, R122), and the register instructions
(42_alu.md R141 to R153). -/

namespace Sys2Proof.Machine

/-! ### The call stack -/

/-- Settles O29: `faultOf` tells the two cases apart; a pop uncovers the entry SP points at after it. -/
theorem returnPopsOrUnderflows : Obligations.ReturnPopsOrUnderflows := by
  refine fun s => ⟨decode_encode_of_ne_undef (i := .ret) nofun, fun k hk => ?_, fun hsp => ?_⟩
  · have hnone : s.faultOf .ret = none := if_neg (by omega)
    have htop : s.top = k := Fin.ext (by simp [State.top, hk])
    refine ⟨_, exec_of_no_fault hnone, ?_, ?_, rfl, fun _ => rfl⟩
    · rw [State.effect, htop, State.setPc_pc]
    · rw [State.effect, htop]
      rfl
  · have hfault : s.faultOf .ret = some .stackUnderflow := if_pos hsp
    exact exec_of_fault hfault

theorem State.pushed_get_self (s : State) (w : Word) {k : Fin 16} (hk : s.sp.val = k.val) :
    (s.stack.setIfInBounds s.sp.val w).get k = w := by
  rw [hk]
  exact Vector.getElem_setIfInBounds_self k.isLt

/-- Settles O31: `faultOf` tells the two cases apart; a push writes the entry SP points at. -/
theorem callPushesOrOverflows : Obligations.CallPushesOrOverflows := by
  refine fun nnn s => ⟨decode_encode_of_ne_undef (i := .call nnn) nofun, fun k hk => ?_, fun hsp => ?_⟩
  · have hlt := k.isLt
    have hnone : s.faultOf (.call nnn) = none := if_neg (by omega)
    refine ⟨_, exec_of_no_fault hnone, s.pushed_get_self s.pc hk, fun j hj => ?_, ?_, address_toNat nnn, rfl,
      fun _ => rfl⟩
    · exact s.pushed_get_of_ne s.pc fun h => hj (Fin.ext (h.trans hk))
    · show min (s.sp.val + 1) 16 = k.val + 1
      omega
  · have hfault : s.faultOf (.call nnn) = some .stackOverflow := if_pos hsp
    exact exec_of_fault hfault

/-! ### One register written: 6XNN, 7XNN, 8XY0 to 8XY3 -/

theorem exec_setV {i : Instr} {s : State} {x : Reg} {b : Byte} (h : exec i s = .next (s.setV x b)) :
    ∃ t, exec i s = .next t ∧ t.getV x = b ∧ (∀ r, r ≠ x → t.getV r = s.getV r) ∧ { t with v := s.v } = s ∧
      ∀ a, t.mem.read a = s.mem.read a := by
  refine ⟨_, h, ?_, fun r hr => ?_, s.setV_restore x b, fun _ => rfl⟩
  · rw [State.getV_setV, if_pos rfl]
  · rw [State.getV_setV, if_neg hr]

/-- Settles O34: each is one `setV`. -/
theorem loadAndAddImmediate : Obligations.LoadAndAddImmediate := by
  refine fun x nn s => ⟨⟨decode_encode_of_ne_undef (i := .ldImm x nn) nofun, exec_setV rfl⟩,
    decode_encode_of_ne_undef (i := .addImm x nn) nofun, ?_⟩
  obtain ⟨t, ht, hx, hframe⟩ := exec_setV (i := .addImm x nn) (s := s) rfl
  exact ⟨t, ht, by rw [hx, BitVec.toNat_add], hframe⟩

/-- Settles O35: each is one `setV`. -/
theorem copyAndLogic : Obligations.CopyAndLogic := fun x y _ =>
  ⟨⟨decode_encode_of_ne_undef (i := .ldReg x y) nofun, exec_setV rfl⟩,
    ⟨decode_encode_of_ne_undef (i := .orReg x y) nofun, exec_setV rfl⟩,
    ⟨decode_encode_of_ne_undef (i := .andReg x y) nofun, exec_setV rfl⟩,
    ⟨decode_encode_of_ne_undef (i := .xorReg x y) nofun, exec_setV rfl⟩⟩

/-! ### A register and the flag: 8XY4 to 8XY7, 8XYE -/

theorem exec_resultThenFlag {i : Instr} {s : State} {x : Reg} {b f : Byte}
    (h : exec i s = .next (s.resultThenFlag x b f)) :
    ∃ t, exec i s = .next t ∧ t.getV 15 = f ∧ (x ≠ 15 → t.getV x = b) ∧
      (∀ r, r ≠ x → r ≠ 15 → t.getV r = s.getV r) ∧ { t with v := s.v } = s ∧
      ∀ a, t.mem.read a = s.mem.read a := by
  refine ⟨_, h, ?_, fun hx => ?_, fun r hr hf => ?_, rfl, fun _ => rfl⟩
  · rw [State.getV_resultThenFlag, if_pos rfl]
  · rw [State.getV_resultThenFlag, if_neg hx, if_pos rfl]
  · rw [State.getV_resultThenFlag, if_neg hf, if_neg hr]

theorem exec_flagThenResult {i : Instr} {s : State} {x : Reg} {b f : Byte}
    (h : exec i s = .next (s.flagThenResult x f b)) :
    ∃ t, exec i s = .next t ∧ t.getV x = b ∧ (x ≠ 15 → t.getV 15 = f) ∧
      (∀ r, r ≠ x → r ≠ 15 → t.getV r = s.getV r) ∧ { t with v := s.v } = s ∧
      ∀ a, t.mem.read a = s.mem.read a := by
  refine ⟨_, h, ?_, fun hx => ?_, fun r hr hf => ?_, rfl, fun _ => rfl⟩
  · rw [State.getV_flagThenResult, if_pos rfl]
  · rw [State.getV_flagThenResult, if_neg hx.symm, if_pos rfl]
  · rw [State.getV_flagThenResult, if_neg hr, if_neg hf]

theorem flagByte_decide (p : Prop) [Decidable p] : flagByte (decide p) = if p then 1 else 0 :=
  if_congr decide_eq_true_iff rfl rfl

/-- Settles O36: the sum, then the carry, which `exec_resultThenFlag` leaves in VF. -/
theorem addWithCarry : Obligations.AddWithCarry := by
  refine fun x y s => ⟨decode_encode_of_ne_undef (i := .addReg x y) nofun, ?_⟩
  obtain ⟨t, ht, hflag, hx, hframe⟩ := exec_resultThenFlag (i := .addReg x y) (s := s) rfl
  exact ⟨t, ht, hflag.trans (flagByte_decide _), fun hne => by rw [hx hne, BitVec.toNat_add], hframe⟩

theorem byte_sub_toNat (a b : Byte) : (a - b).toNat = (a.toNat + 256 - b.toNat) % 256 := by
  have hb := b.isLt
  rw [BitVec.toNat_sub]
  omega

/-- Settles O37: the two instructions differ in which operand is the minuend. -/
theorem subtractWithFlag : Obligations.SubtractWithFlag := by
  refine fun x y s => ⟨⟨decode_encode_of_ne_undef (i := .subReg x y) nofun, ?_⟩,
    decode_encode_of_ne_undef (i := .subnReg x y) nofun, ?_⟩
  · obtain ⟨t, ht, hx, hflag, hframe⟩ := exec_flagThenResult (i := .subReg x y) (s := s) rfl
    exact ⟨t, ht, by rw [hx, byte_sub_toNat], fun hne => (hflag hne).trans (flagByte_decide _), hframe⟩
  · obtain ⟨t, ht, hx, hflag, hframe⟩ := exec_flagThenResult (i := .subnReg x y) (s := s) rfl
    exact ⟨t, ht, by rw [hx, byte_sub_toNat], fun hne => (hflag hne).trans (flagByte_decide _), hframe⟩

/-! ### Shifts -/

theorem flagByte_toNat (b : Bool) : (flagByte b).toNat = b.toNat := by
  cases b <;> rfl

theorem shrFlag_toNat (src : Byte) : (shrFlag src).toNat = src.toNat % 2 := by
  rw [shrFlag, flagByte_toNat, BitVec.getLsbD, Nat.toNat_testBit, Nat.pow_zero, Nat.div_one]

theorem shlFlag_toNat (src : Byte) : (shlFlag src).toNat = src.toNat / 128 := by
  have hsrc := src.isLt
  rw [shlFlag, flagByte_toNat, BitVec.getLsbD, Nat.toNat_testBit]
  omega

/-- Settles O38: the source is `shiftSource`, and the flag is its bit 0 or bit 7. -/
theorem shiftsByOne : Obligations.ShiftsByOne := by
  refine fun x y s => ⟨⟨decode_encode_of_ne_undef (i := .shr x y) nofun, ?_⟩,
    decode_encode_of_ne_undef (i := .shl x y) nofun, ?_⟩
  · obtain ⟨t, ht, hflag, hx, hframe⟩ := exec_resultThenFlag (i := .shr x y) (s := s) rfl
    refine ⟨t, ht, fun src hsrc => ⟨?_, fun hne => ?_⟩, hframe⟩
    · rw [hflag, hsrc]
      exact shrFlag_toNat _
    · rw [hx hne, hsrc, BitVec.toNat_ushiftRight]
      rfl
  · obtain ⟨t, ht, hflag, hx, hframe⟩ := exec_resultThenFlag (i := .shl x y) (s := s) rfl
    refine ⟨t, ht, fun src hsrc => ⟨?_, fun hne => ?_⟩, hframe⟩
    · rw [hflag, hsrc]
      exact shlFlag_toNat _
    · rw [hx hne, hsrc, BitVec.toNat_shiftLeft, Nat.shiftLeft_eq]
      rfl

/-! ### Random -/

/-- Settles O39: one draw, masked into VX. -/
theorem randomIsTheDrawMasked : Obligations.RandomIsTheDrawMasked := by
  intro x nn s
  have hvx : (s.afterDraw.setV x (s.randByte &&& nn)).getV x = s.randByte &&& nn := by
    rw [State.getV_setV, if_pos rfl]
  refine ⟨decode_encode_of_ne_undef (i := .rnd x nn) nofun, s.randByte, _, exec_of_no_fault rfl, hvx,
    fun r rest hrand => ?_, fun hrand => ?_, ?_, fun r hr => ?_, rfl, fun _ => rfl⟩
  · simp [State.randByte, State.effect, State.afterDraw, hrand]
  · simp [State.randByte, State.effect, State.afterDraw, hrand]
  · rw [State.effect, hvx, BitVec.and_assoc, BitVec.and_not_self]
    exact BitVec.and_zero
  · rw [State.effect, State.getV_setV, if_neg hr]
    rfl

end Sys2Proof.Machine
end

section
/-! The index register and memory: FX1E, FX33, FX55, FX65 (43_index_memory.md R161 to R165), and the key
skips EX9E and EXA1 (45_keypad_timer.md R181, R182). -/

namespace Sys2Proof.Machine

/-! ### FX1E -/

/-- Settles O41: I and VF are written from the operands before any write. -/
theorem addToIndex : Obligations.AddToIndex := by
  refine fun x s => ⟨decode_encode_of_ne_undef (i := .addI x) nofun, _, exec_of_no_fault rfl, ?_, ?_,
    fun r hr => ?_, rfl, fun _ => rfl⟩
  · show (s.idx + zextByte (s.getV x)).toNat = _
    rw [BitVec.toNat_add, zextByte_toNat]
  · rw [State.effect, State.getV_setV]
    exact flagByte_decide _
  · rw [State.effect, State.getV_setV]
    exact if_neg hr

/-! ### FX33 -/

/-- Settles O42: `faultOf` tells the two cases apart; the three digits are stored in order. -/
theorem storeDecimalDigits : Obligations.StoreDecimalDigits := by
  refine fun x s => ⟨decode_encode_of_ne_undef (i := .ldB x) nofun, fun hin => ?_, fun hpast => ?_⟩
  · have hnone : s.faultOf (.ldB x) = none := if_neg (Nat.not_lt.mpr hin)
    have hvx := (s.getV x).isLt
    have digit (k : Nat) (hk : k < 3) :
        (s.effect (.ldB x)).mem.read (s.dataAddr k) = (decimalDigits (s.getV x))[k]'hk :=
      s.read_stored (decimalDigits (s.getV x)) k hk
    refine ⟨_, exec_of_no_fault hnone, ?_, ?_, ?_, fun a ha => ?_, rfl⟩
    · rw [digit 0 (by decide)]
      exact byte_ofNat_toNat (by omega)
    · rw [digit 1 (by decide)]
      exact byte_ofNat_toNat (by omega)
    · rw [digit 2 (by decide)]
      exact byte_ofNat_toNat (by omega)
    · exact Memory.read_writeBytes_outside _ _ _ _ ha
  · have hfault : s.faultOf (.ldB x) = some .dataBounds := if_pos hpast
    exact exec_of_fault hfault

/-! ### FX55 and FX65 -/

/-- Within memory the quirk increment does not wrap (R166). -/
theorem State.bumpedI_toNat {s : State} {x : Reg} (hin : s.dataAddr x.val ≤ 0xFFF) (c : Bool) :
    (s.bumpedI c x).toNat = if c = true then s.idx.toNat + x.val else s.idx.toNat := by
  cases c with
  | true =>
    rw [State.dataAddr_eq] at hin
    have hx : (BitVec.ofNat 16 x.val).toNat = x.val := by
      rw [BitVec.toNat_ofNat]
      omega
    show (s.idx + BitVec.ofNat 16 x.val).toNat = s.idx.toNat + x.val
    rw [BitVec.toNat_add_of_lt (by omega), hx]
  | false => rfl

/-- Settles O43: `faultOf` tells the two cases apart; the registers are stored in order. -/
theorem storeRegisters : Obligations.StoreRegisters := by
  refine fun x s => ⟨decode_encode_of_ne_undef (i := .stRegs x) nofun, fun hin => ?_, fun hpast => ?_⟩
  · have hnone : s.faultOf (.stRegs x) = none := if_neg (Nat.not_lt.mpr hin)
    refine ⟨_, exec_of_no_fault hnone, fun k hk => s.read_stored_reg hk, fun a ha => ?_,
      State.bumpedI_toNat hin s.q.si, rfl⟩
    refine Memory.read_writeBytes_outside _ _ _ _ ?_
    rw [State.regsUpTo_length]
    exact ha
  · have hfault : s.faultOf (.stRegs x) = some .dataBounds := if_pos hpast
    exact exec_of_fault hfault

/-- Settles O44: `faultOf` tells the two cases apart; `loadRegs_get` says which registers are loaded. -/
theorem loadRegisters : Obligations.LoadRegisters := by
  refine fun x s => ⟨decode_encode_of_ne_undef (i := .ldRegs x) nofun, fun hin => ?_, fun hpast => ?_⟩
  · have hnone : s.faultOf (.ldRegs x) = none := if_neg (Nat.not_lt.mpr hin)
    refine ⟨_, exec_of_no_fault hnone, fun k hk => ?_, fun k hk => ?_, State.bumpedI_toNat hin s.q.li, rfl,
      fun _ => rfl⟩
    · exact (loadRegs_get ..).trans (if_pos (Nat.lt_succ_of_le hk))
    · exact (loadRegs_get ..).trans (if_neg (Nat.not_lt.mpr hk))
  · have hfault : s.faultOf (.ldRegs x) = some .dataBounds := if_pos hpast
    exact exec_of_fault hfault

/-! ### EX9E and EXA1 -/

theorem State.keyHeld_of_key {s : State} {b : Byte} {k : Key} (h : b.toNat = k.val) :
    s.keyHeld b = s.getKey k := by
  have hk := k.isLt
  have hkey : b.toNat ≤ 0x0F := by omega
  rw [State.keyHeld, dif_pos hkey]
  exact congrArg s.getKey (Fin.ext h)

theorem State.keyHeld_of_no_key {s : State} {b : Byte} (h : 0x0F < b.toNat) : s.keyHeld b = false :=
  dif_neg (Nat.not_le.mpr h)

theorem exec_skp (x : Reg) (s : State) : exec (.skp x) s = .next (s.skipIf (s.keyHeld (s.getV x))) := rfl

theorem exec_sknp (x : Reg) (s : State) : exec (.sknp x) s = .next (s.skipIf (!s.keyHeld (s.getV x))) := rfl

/-- Settles O49: each is one skip, on `keyHeld` or on its negation. -/
theorem keySkips : Obligations.KeySkips := by
  refine fun x s => ⟨⟨decode_encode_of_ne_undef (i := .skp x) nofun, _, exec_skp x s, fun k hk => ?_,
      fun hno => ?_, s.skipIf_restore _, fun _ => by rw [State.skipIf_mem]⟩,
    decode_encode_of_ne_undef (i := .sknp x) nofun, _, exec_sknp x s, fun k hk => ?_, fun hno => ?_,
      s.skipIf_restore _, fun _ => by rw [State.skipIf_mem]⟩
  · rw [State.skipIf_pc, State.keyHeld_of_key hk]
  · rw [State.keyHeld_of_no_key hno]
    rfl
  · rw [State.skipIf_pc, State.keyHeld_of_key hk]
    cases s.getKey k <;> rfl
  · rw [State.keyHeld_of_no_key hno]
    rfl

end Sys2Proof.Machine
end

section
/-! The display: 00E0 and DXYN (44_display.md R170 to R174). A draw is the XOR of the sprite's pixels onto the
framebuffer, and VF says whether one of them was on. -/

namespace Sys2Proof.Machine

/-- Settles O45: one `present` of the blank display. -/
theorem clearDisplay : Obligations.ClearDisplay := fun s =>
  ⟨decode_encode_of_ne_undef (i := .cls) nofun, s.present blankDisplay false, rfl, pixel_blankDisplay, rfl, rfl,
    rfl, fun _ => rfl⟩

/-! ### One draw -/

/-- The pixels that DXYN sets in the state it begins in (R170, R173). -/
def State.drawCovers (s : State) (x y : Reg) (n : Fin 16) (py : Fin 32) (px : Fin 64) : Prop :=
  spriteCovers s.mem (s.dataAddr 0) (s.getV x) (s.getV y) n.val py px

section
variable (s : State) (x y : Reg) (n : Fin 16)

theorem State.pixel_drawn_of_covers {py : Fin 32} {px : Fin 64} (h : s.drawCovers x y n py px) :
    pixel (s.drawn x y n).1 py px = !pixel s.fb py px :=
  (drawRows_spec _ _ (s.fb, false) _ _ n.val (by omega)).1 py px h

theorem State.pixel_drawn_of_not_covers {py : Fin 32} {px : Fin 64} (h : ¬ s.drawCovers x y n py px) :
    pixel (s.drawn x y n).1 py px = pixel s.fb py px :=
  (drawRows_spec _ _ (s.fb, false) _ _ n.val (by omega)).2.1 py px h

theorem State.drawn_collides_iff :
    (s.drawn x y n).2 = true ↔ ∃ py px, s.drawCovers x y n py px ∧ pixel s.fb py px = true :=
  (drawRows_spec _ _ (s.fb, false) _ _ n.val (by omega)).2.2.trans (or_iff_right Bool.false_ne_true)

/-- VF after a draw. -/
theorem effect_drw_getV_15 : (s.effect (.drw x y n)).getV 15 = flagByte (s.drawn x y n).2 := by
  rw [State.effect, State.present_getV, State.getV_setV]
  exact if_pos rfl

variable {s x y n}

theorem effect_drw_collides {py : Fin 32} {px : Fin 64} (hcov : s.drawCovers x y n py px)
    (hon : pixel s.fb py px = true) : (s.effect (.drw x y n)).getV 15 = 1 := by
  rw [effect_drw_getV_15, (s.drawn_collides_iff x y n).mpr ⟨py, px, hcov, hon⟩]
  rfl

theorem effect_drw_no_collision (hoff : ∀ py px, s.drawCovers x y n py px → pixel s.fb py px = false) :
    (s.effect (.drw x y n)).getV 15 = 0 := by
  have hnone : ¬ (s.drawn x y n).2 = true := fun hcollide => by
    obtain ⟨py, px, hcov, hon⟩ := (s.drawn_collides_iff x y n).mp hcollide
    cases (hoff py px hcov).symm.trans hon
  rw [effect_drw_getV_15, Bool.eq_false_iff.mpr hnone]
  rfl

theorem faultOf_drw (hin : n.val = 0 ∨ s.dataAddr (n.val - 1) ≤ 0xFFF) : s.faultOf (.drw x y n) = none :=
  if_neg (by omega)

end

/-- Settles O46: `drawRows_spec` says which pixels are turned over, and the collision goes to VF. -/
theorem drawIsXorWithCollision : Obligations.DrawIsXorWithCollision := by
  refine fun x y n s => ⟨decode_encode_of_ne_undef (i := .drw x y n) nofun, fun hin => ?_, fun hn hpast => ?_⟩
  · refine ⟨_, exec_of_no_fault (faultOf_drw hin), fun _ _ => s.pixel_drawn_of_covers x y n,
      fun _ _ => s.pixel_drawn_of_not_covers x y n, fun ⟨_, _, hon, hcov⟩ => effect_drw_collides hcov hon,
      fun hoff => effect_drw_no_collision fun py px hcov => ?_, fun r hr => ?_, rfl, rfl, rfl, fun _ => rfl⟩
    · exact Bool.eq_false_iff.mpr fun hon => hoff py px hon hcov
    · rw [State.effect, State.present_getV, State.getV_setV]
      exact if_neg hr
  · have hfault : s.faultOf (.drw x y n) = some .dataBounds := if_pos ⟨hn, hpast⟩
    exact exec_of_fault hfault

/-! ### Two draws (R173 b) -/

/-- The same bytes drawn at the same place modulo 64 and 32 cover the same pixels. -/
theorem State.drawCovers_congr {s s' : State} {x y x' y' : Reg} {n : Fin 16}
    (hx : (s'.getV x').toNat % 64 = (s.getV x).toNat % 64)
    (hy : (s'.getV y').toNat % 32 = (s.getV y).toNat % 32)
    (hbytes : ∀ r, r < n.val → s'.mem.read (s'.dataAddr r) = s.mem.read (s.dataAddr r))
    (py : Fin 32) (px : Fin 64) : s'.drawCovers x' y' n py px ↔ s.drawCovers x y n py px := by
  refine exists_congr fun r => exists_congr fun c => and_congr_right fun hr => and_congr_right fun _ => ?_
  have hcol : ((s'.getV x').toNat + c) % 64 = ((s.getV x).toNat + c) % 64 := by omega
  have hrow : ((s'.getV y').toNat + r) % 32 = ((s.getV y).toNat + r) % 32 := by omega
  rw [State.dataAddr_add, State.dataAddr_add, hbytes r hr, hcol, hrow]

/-- Settles O47: both draws turn over the same pixels (`drawCovers_congr`), so the second undoes the first;
a pixel that was off is on in between, and collides. -/
theorem drawingTwiceRestores : Obligations.DrawingTwiceRestores := by
  intro x y x' y' n s t s' t' hin hin' h hfb hx hy hbytes h'
  obtain rfl := next_unique (exec_of_no_fault (faultOf_drw hin)) h
  obtain rfl := next_unique (exec_of_no_fault (faultOf_drw hin')) h'
  have hcov := State.drawCovers_congr hx hy hbytes
  have hfb : s'.fb = (s.drawn x y n).1 := hfb
  refine ⟨display_ext _ _ fun py px => ?_, fun hoff ⟨py, px, hset⟩ => ⟨effect_drw_no_collision hoff, ?_⟩⟩
  · show pixel (s'.drawn x' y' n).1 py px = pixel s.fb py px
    by_cases hc : s.drawCovers x y n py px
    · rw [s'.pixel_drawn_of_covers x' y' n ((hcov py px).mpr hc), hfb, s.pixel_drawn_of_covers x y n hc,
        Bool.not_not]
    · rw [s'.pixel_drawn_of_not_covers x' y' n fun hc' => hc ((hcov py px).mp hc'), hfb,
        s.pixel_drawn_of_not_covers x y n hc]
  · refine effect_drw_collides ((hcov py px).mpr hset) ?_
    rw [hfb, s.pixel_drawn_of_covers x y n hset, hoff py px hset]
    rfl

/-- Settles O48: a DXYN that does not halt the machine has its effect, and no pixel of the blank display is
on. -/
theorem drawAfterClearHasNoCollision : Obligations.DrawAfterClearHasNoCollision := by
  intro x y n s t s' t' hcls hfb hrun h hrun'
  obtain rfl := Host.Outcome.next.inj hcls
  rcases exec_next_cases h with ⟨k, -, rfl⟩ | ⟨-, rfl⟩
  · cases hrun'
  · refine effect_drw_no_collision fun py px _ => ?_
    rw [hfb]
    exact pixel_blankDisplay py px

end Sys2Proof.Machine
end
